-- ==== Sys2Proof/Word.lean ====
section
/-! DEFINITION. The word types of MDAE: registers and command words are 32 bits (10_state.md R24, 30_encoding.md R100),
MEM is addressed in bytes (20_memory.md R72). -/

namespace Sys2Proof

/-- A REG register, an operand, a command word, a token: 32 bits. -/
abbrev Word := BitVec 32

/-- One byte of MEM, of the timbre bank, or of the OPL write port. -/
abbrev Byte := BitVec 8

end Sys2Proof
end

