-- ==== Sys2Proof/Syntax.lean ====
section
/-! DEFINITION. The commands of MDAE: one constructor per row of the opcode table of 30_encoding.md R111, in its order,
with the inline fields of that row at the widths R102 gives them. -/

namespace Sys2Proof

/-- A command (30_encoding.md R111). -/
inductive Instr where
  | nop
  | reset
  | clrerr (imm8 : BitVec 8)
  | alloc
  | play (fmt : BitVec 4)
  | stop
  | stopall
  | setpan
  | setpitch
  | setfreq
  | isplaying
  | countplaying
  | hasfree
  | setmastervol (imm8 : BitVec 8)
  | setrevstereo (imm1 : Bool)
  | setlpf (en : Bool) (beta alpha : BitVec 9)
  | setmusicgen (imm1 : Bool)
  | mix
  | drain
  | cback
  | tbload
  | oplreset
  | oplalloff
  | setmusicvol (imm8 : BitVec 8)
  | ovfind (qch : BitVec 4) (key : BitVec 7)
  | ovalloc (qch : BitVec 4) (tim : BitVec 8)
  | ovtimbre (vo : BitVec 4) (tim : BitVec 8)
  | ovvolume (vo : BitVec 4)
  | ovpitch (vo : BitVec 4)
  | noteoff (ch : BitVec 4) (d1 d2 : BitVec 7)
  | noteon (ch : BitVec 4) (d1 d2 : BitVec 7)
  | keypressure (ch : BitVec 4) (d1 d2 : BitVec 7)
  | controller (ch : BitVec 4) (d1 d2 : BitVec 7)
  | progchange (ch : BitVec 4) (d1 : BitVec 7)
  | chanpressure (ch : BitVec 4) (d1 : BitVec 7)
  | pitchbend (ch : BitVec 4) (d1 d2 : BitVec 7)
  deriving DecidableEq, Repr

end Sys2Proof
end

