-- ==== Sys2Proof/Decode.lean ====
section
/-! DEFINITION. Decoding (30_encoding.md R112, R113) and encoding of command words. The decoder is the opcode table of R111
read as R112 says: the row where the word and the row's mask give the row's match. -/

namespace Sys2Proof

/-- One row of the opcode table of 30_encoding.md R111: mnemonic, match, mask, and the command with the row's inline
fields taken from the word. -/
structure OpRow where
  mnemonic : String
  value    : Word
  mask     : Word
  build    : Word → Instr

/-- The format M fields of 30_encoding.md R107: `ch = W[27:24]`, `d1 = W[22:16]`, `d2 = W[14:8]`. -/
def midiCh (w : Word) : BitVec 4 := w.extractLsb' 24 4

/-- `d1` of 30_encoding.md R102, format M. -/
def midiD1 (w : Word) : BitVec 7 := w.extractLsb' 16 7

/-- `d2` of 30_encoding.md R102, format M. -/
def midiD2 (w : Word) : BitVec 7 := w.extractLsb' 8 7

/-- `imm8 = W[7:0]` of formats I8. -/
def fieldImm8 (w : Word) : BitVec 8 := w.extractLsb' 0 8

/-- `vo` or `qch`, `W[19:16]`, of formats V and Q. -/
def fieldVo (w : Word) : BitVec 4 := w.extractLsb' 16 4

/-- `tim = W[15:8]` of formats V and Q. -/
def fieldTim (w : Word) : BitVec 8 := w.extractLsb' 8 8

/-- The 36 rows of 30_encoding.md R111, in its order. -/
def opcodeTable : List OpRow := [
  ⟨"NOP",          0x00000000, 0xFFFFFFFF, fun _ => .nop⟩,
  ⟨"RESET",        0x01000000, 0xFFFFFFFF, fun _ => .reset⟩,
  ⟨"CLRERR",       0x02000000, 0xFFFFFF00, fun w => .clrerr (fieldImm8 w)⟩,
  ⟨"ALLOC",        0x10000000, 0xFFFFFFFF, fun _ => .alloc⟩,
  ⟨"PLAY",         0x11000000, 0xFFFFFFF0, fun w => .play (w.extractLsb' 0 4)⟩,
  ⟨"STOP",         0x12000000, 0xFFFFFFFF, fun _ => .stop⟩,
  ⟨"STOPALL",      0x13000000, 0xFFFFFFFF, fun _ => .stopall⟩,
  ⟨"SETPAN",       0x14000000, 0xFFFFFFFF, fun _ => .setpan⟩,
  ⟨"SETPITCH",     0x15000000, 0xFFFFFFFF, fun _ => .setpitch⟩,
  ⟨"SETFREQ",      0x16000000, 0xFFFFFFFF, fun _ => .setfreq⟩,
  ⟨"ISPLAYING",    0x17000000, 0xFFFFFFFF, fun _ => .isplaying⟩,
  ⟨"COUNTPLAYING", 0x18000000, 0xFFFFFFFF, fun _ => .countplaying⟩,
  ⟨"HASFREE",      0x19000000, 0xFFFFFFFF, fun _ => .hasfree⟩,
  ⟨"SETMASTERVOL", 0x1A000000, 0xFFFFFF00, fun w => .setmastervol (fieldImm8 w)⟩,
  ⟨"SETREVSTEREO", 0x1B000000, 0xFFFFFFFE, fun w => .setrevstereo (w.getLsbD 0)⟩,
  ⟨"SETLPF",       0x1C000000, 0xFFF80000, fun w => .setlpf (w.getLsbD 18) (w.extractLsb' 9 9) (w.extractLsb' 0 9)⟩,
  ⟨"SETMUSICGEN",  0x1D000000, 0xFFFFFFFE, fun w => .setmusicgen (w.getLsbD 0)⟩,
  ⟨"MIX",          0x20000000, 0xFFFFFFFF, fun _ => .mix⟩,
  ⟨"DRAIN",        0x21000000, 0xFFFFFFFF, fun _ => .drain⟩,
  ⟨"CBACK",        0x22000000, 0xFFFFFFFF, fun _ => .cback⟩,
  ⟨"TBLOAD",       0x30000000, 0xFFFFFFFF, fun _ => .tbload⟩,
  ⟨"OPLRESET",     0x31000000, 0xFFFFFFFF, fun _ => .oplreset⟩,
  ⟨"OPLALLOFF",    0x32000000, 0xFFFFFFFF, fun _ => .oplalloff⟩,
  ⟨"SETMUSICVOL",  0x33000000, 0xFFFFFF00, fun w => .setmusicvol (fieldImm8 w)⟩,
  ⟨"OVFIND",       0x34000000, 0xFFF080FF, fun w => .ovfind (fieldVo w) (w.extractLsb' 8 7)⟩,
  ⟨"OVALLOC",      0x35000000, 0xFFF000FF, fun w => .ovalloc (fieldVo w) (fieldTim w)⟩,
  ⟨"OVTIMBRE",     0x36000000, 0xFFF000FF, fun w => .ovtimbre (fieldVo w) (fieldTim w)⟩,
  ⟨"OVVOLUME",     0x37000000, 0xFFF0FFFF, fun w => .ovvolume (fieldVo w)⟩,
  ⟨"OVPITCH",      0x38000000, 0xFFF0FFFF, fun w => .ovpitch (fieldVo w)⟩,
  ⟨"NOTEOFF",      0x80000000, 0xF08080FF, fun w => .noteoff (midiCh w) (midiD1 w) (midiD2 w)⟩,
  ⟨"NOTEON",       0x90000000, 0xF08080FF, fun w => .noteon (midiCh w) (midiD1 w) (midiD2 w)⟩,
  ⟨"KEYPRESSURE",  0xA0000000, 0xF08080FF, fun w => .keypressure (midiCh w) (midiD1 w) (midiD2 w)⟩,
  ⟨"CONTROLLER",   0xB0000000, 0xF08080FF, fun w => .controller (midiCh w) (midiD1 w) (midiD2 w)⟩,
  ⟨"PROGCHANGE",   0xC0000000, 0xF080FFFF, fun w => .progchange (midiCh w) (midiD1 w)⟩,
  ⟨"CHANPRESSURE", 0xD0000000, 0xF080FFFF, fun w => .chanpressure (midiCh w) (midiD1 w)⟩,
  ⟨"PITCHBEND",    0xE0000000, 0xF08080FF, fun w => .pitchbend (midiCh w) (midiD1 w) (midiD2 w)⟩]

/-- The row selects the word: `(W & row.mask) == row.match` (30_encoding.md R111). -/
def OpRow.matches (r : OpRow) (w : Word) : Bool := w &&& r.mask == r.value

/-- Why a word or a byte list is no command (30_encoding.md R113, R100). -/
inductive DecodeError where
  /-- The opcode byte belongs to no row. -/
  | reservedOpcode (op : BitVec 8)
  /-- The opcode byte belongs to a row, and a must-be-zero bit is set. -/
  | mustBeZeroBits (op : BitVec 8)
  /-- Not four bytes. -/
  | notOneWord (bytes : Nat)
  deriving DecidableEq, Repr

/-- The opcode byte `W[31:24]` of 30_encoding.md R101. -/
def opcodeByte (w : Word) : BitVec 8 := w.extractLsb' 24 8

/-- Some row has this word's opcode byte. -/
def opcodeListed (w : Word) : Bool :=
  opcodeTable.any fun r => opcodeByte w &&& opcodeByte r.mask == opcodeByte r.value

/-- Decoding of one command word, total (30_encoding.md R112): the row that matches, or the reason there is none. -/
def decode (w : Word) : Except DecodeError Instr :=
  match opcodeTable.find? (fun r => r.matches w) with
  | some r => .ok (r.build w)
  | none   => .error (if opcodeListed w then .mustBeZeroBits (opcodeByte w) else .reservedOpcode (opcodeByte w))

/-- Four bytes as one word, the byte at the lowest address first (20_memory.md R76: bit 0 of a REG word is in it). -/
def wordOfBytes (b0 b1 b2 b3 : Byte) : Word := b3 ++ b2 ++ b1 ++ b0

/-- The four bytes of a word, in the same order. -/
def bytesOfWord (w : Word) : List Byte :=
  [w.extractLsb' 0 8, w.extractLsb' 8 8, w.extractLsb' 16 8, w.extractLsb' 24 8]

/-- Decoding of a byte list: a command is exactly one word (30_encoding.md R100). -/
def decodeBytes : List Byte → Except DecodeError Instr
  | [b0, b1, b2, b3] => decode (wordOfBytes b0 b1 b2 b3)
  | bs               => .error (.notOneWord bs.length)

/-- The instruction the decoder reads from a table row's word: its four bytes laid out little-endian. Every row has 32
bits, so `nbits` adds nothing beyond the length of what is laid out. -/
def decodeTableWord (nbits w : Nat) : Option Instr :=
  match decodeBytes (bytesOfWord (BitVec.ofNat 32 (w % 2 ^ nbits))) with
  | .ok i    => some i
  | .error _ => none

/-- Four bytes `op`, `a`, `b`, `c` as a command word (30_encoding.md R101). -/
def packFields (op a b c : BitVec 8) : Word := op ++ a ++ b ++ c

/-- A MIDI channel message as a command word (30_encoding.md R107): `kind`, `ch`, and two data bytes with bit 7 clear. -/
def packMidi (kind ch : BitVec 4) (d1 d2 : BitVec 7) : Word :=
  packFields (kind ++ ch) (0#1 ++ d1) (0#1 ++ d2) 0

/-- The word of a command, written from the formats of 30_encoding.md R102 and the opcodes of R111. -/
def encode : Instr → Word
  | .nop                    => packFields 0x00 0 0 0
  | .reset                  => packFields 0x01 0 0 0
  | .clrerr imm8            => packFields 0x02 0 0 imm8
  | .alloc                  => packFields 0x10 0 0 0
  | .play fmt               => packFields 0x11 0 0 (0#4 ++ fmt)
  | .stop                   => packFields 0x12 0 0 0
  | .stopall                => packFields 0x13 0 0 0
  | .setpan                 => packFields 0x14 0 0 0
  | .setpitch               => packFields 0x15 0 0 0
  | .setfreq                => packFields 0x16 0 0 0
  | .isplaying              => packFields 0x17 0 0 0
  | .countplaying           => packFields 0x18 0 0 0
  | .hasfree                => packFields 0x19 0 0 0
  | .setmastervol imm8      => packFields 0x1A 0 0 imm8
  | .setrevstereo imm1      => packFields 0x1B 0 0 (0#7 ++ BitVec.ofBool imm1)
  | .setlpf en beta alpha   => 0x1C#8 ++ 0#5 ++ BitVec.ofBool en ++ beta ++ alpha
  | .setmusicgen imm1       => packFields 0x1D 0 0 (0#7 ++ BitVec.ofBool imm1)
  | .mix                    => packFields 0x20 0 0 0
  | .drain                  => packFields 0x21 0 0 0
  | .cback                  => packFields 0x22 0 0 0
  | .tbload                 => packFields 0x30 0 0 0
  | .oplreset               => packFields 0x31 0 0 0
  | .oplalloff              => packFields 0x32 0 0 0
  | .setmusicvol imm8       => packFields 0x33 0 0 imm8
  | .ovfind qch key         => packFields 0x34 (0#4 ++ qch) (0#1 ++ key) 0
  | .ovalloc qch tim        => packFields 0x35 (0#4 ++ qch) tim 0
  | .ovtimbre vo tim        => packFields 0x36 (0#4 ++ vo) tim 0
  | .ovvolume vo            => packFields 0x37 (0#4 ++ vo) 0 0
  | .ovpitch vo             => packFields 0x38 (0#4 ++ vo) 0 0
  | .noteoff ch d1 d2       => packMidi 0x8 ch d1 d2
  | .noteon ch d1 d2        => packMidi 0x9 ch d1 d2
  | .keypressure ch d1 d2   => packMidi 0xA ch d1 d2
  | .controller ch d1 d2    => packMidi 0xB ch d1 d2
  | .progchange ch d1       => packMidi 0xC ch d1 0
  | .chanpressure ch d1     => packMidi 0xD ch d1 0
  | .pitchbend ch d1 d2     => packMidi 0xE ch d1 d2

end Sys2Proof
end

