-- ==== Sys2Proof/Config.lean ====
section
/-! DEFINITION. What an implementation fixes (00_scope.md R8) and the free values of the model. The standard parameter
values and the spec's default tables are in Machine/Tables.lean. -/

namespace Sys2Proof

/-- `ADPCM_VARIANT` of 00_scope.md R8: which of the two decoders of 41_refill_adpcm.md is built. -/
inductive AdpcmVariant where
  | a
  | b
  deriving DecidableEq, Repr

/-- What one pitch-bend value gives (44_opl_allocator.md R264): a key offset (signed) and a detune. -/
structure Bend where
  keyOffset : BitVec 8
  detune    : BitVec 8
  deriving DecidableEq, Repr

/-- The parameters 00_scope.md R8 leaves open, as plain data held in State (DESIGN CHOICE, log 1), so that a statement
about every state is a statement about every parameter set. `FNUM` and `BEND_MAP`, functions in the spec, are a default and
a list of exceptions (DESIGN CHOICE, log 15): every such function can be written so. -/
structure Config where
  /-- `NV`, voice slots. -/
  nv          : Nat
  /-- `F_OUT`, output sample rate in Hz. -/
  fOut        : Nat
  /-- `NF`, stereo frames in one sink buffer. -/
  nf          : Nat
  /-- `ADPCM_VARIANT`. -/
  variant     : AdpcmVariant
  /-- `PERC_BANKED`. -/
  percBanked  : Bool
  /-- `CHVOL_RESET`. -/
  chvolReset  : BitVec 7
  /-- `SCALE_MAP[0..63]` (41_refill_adpcm.md R177). -/
  scaleMap    : List Int
  /-- `ADJUST_MAP[0..63]` (R177). -/
  adjustMap   : List Nat
  /-- `IMA_STEP[0..88]` (R181). -/
  imaStep     : List Nat
  /-- `IMA_INDEX[0..7]` (R181). -/
  imaIndex    : List Int
  /-- `MOD_OFF[0..8]` (45_fm_register_mapper.md R294). -/
  modOff      : List Nat
  /-- `FNUM(d, 0..11)` for every detune `d` that `fnumRows` does not list (R302). -/
  fnumRow     : List Nat
  /-- `FNUM(d, 0..11)` for the listed detunes. -/
  fnumRows    : List (BitVec 8 × List Nat)
  /-- `BEND_MAP(bend)` for every bend `bendRows` does not list (R264). -/
  bendDefault : Bend
  /-- `BEND_MAP(bend)` for the listed bends. -/
  bendRows    : List (BitVec 14 × Bend)
  deriving DecidableEq, Repr

/-- A free value: what a field that the spec leaves unspecified holds after the `event`-th reset of a run, at place
`place` (DESIGN CHOICE, log 5). It has no body: nothing can be proved of it. -/
opaque Config.freeBits (w event place : Nat) : BitVec w

/-- A free value: what the byte of MEM at `address` holds before anything is written there (20_memory.md R84,
93_implementation_defined.md U5; DESIGN CHOICE, log 6). It has no body: nothing can be proved of it. -/
opaque Config.freeByte (address : Nat) : BitVec 8

end Sys2Proof
end

