-- ==== Sys2Proof/Machine/Tables.lean ====
section
/-! DEFINITION. The spec's default tables, the standard parameter set, the ranges of the parameters (00_scope.md R8, U15,
U16) and the look-ups in them. The tables are the spec's defaults and carry its mark "from general knowledge, not in source"
(PRESUMED, log 14). -/

namespace Sys2Proof

/-- Default `SCALE_MAP` (41_refill_adpcm.md R177). -/
def defaultScaleMap : List Int := [
  0, 1, 2, 3, 4, 5, 6, 7, 0, -1, -2, -3, -4, -5, -6, -7,
  1, 3, 5, 7, 9, 11, 13, 15, -1, -3, -5, -7, -9, -11, -13, -15,
  2, 6, 10, 14, 18, 22, 26, 30, -2, -6, -10, -14, -18, -22, -26, -30,
  4, 12, 20, 28, 36, 44, 52, 60, -4, -12, -20, -28, -36, -44, -52, -60]

/-- Default `ADJUST_MAP` (41_refill_adpcm.md R177). -/
def defaultAdjustMap : List Nat := [
  0, 0, 0, 0, 0, 16, 16, 16,
  0, 0, 0, 0, 0, 16, 16, 16,
  240, 0, 0, 0, 0, 16, 16, 16,
  240, 0, 0, 0, 0, 16, 16, 16,
  240, 0, 0, 0, 0, 16, 16, 16,
  240, 0, 0, 0, 0, 16, 16, 16,
  240, 0, 0, 0, 0, 0, 0, 0,
  240, 0, 0, 0, 0, 0, 0, 0]

/-- Default `IMA_INDEX` (41_refill_adpcm.md R181). -/
def defaultImaIndex : List Int := [-1, -1, -1, -1, 2, 4, 6, 8]

/-- Default `IMA_STEP` (41_refill_adpcm.md R181). -/
def defaultImaStep : List Nat := [
  7, 8, 9, 10, 11, 12, 13, 14, 16, 17,
  19, 21, 23, 25, 28, 31, 34, 37, 41, 45,
  50, 55, 60, 66, 73, 80, 88, 97, 107, 118,
  130, 143, 157, 173, 190, 209, 230, 253, 279, 307,
  337, 371, 408, 449, 494, 544, 598, 658, 724, 796,
  876, 963, 1060, 1166, 1282, 1411, 1552, 1707, 1878, 2066,
  2272, 2499, 2749, 3024, 3327, 3660, 4026, 4428, 4871, 5358,
  5894, 6484, 7132, 7845, 8630, 9493, 10442, 11487, 12635, 13899,
  15289, 16818, 18500, 20350, 22385, 24623, 27086, 29794, 32767]

/-- Default `MOD_OFF` (45_fm_register_mapper.md R294). -/
def defaultModOff : List Nat := [0x00, 0x01, 0x02, 0x08, 0x09, 0x0A, 0x10, 0x11, 0x12]

/-- Default `FNUM(d, 0..11)`, the same for every `d` (45_fm_register_mapper.md R302). -/
def defaultFnumRow : List Nat :=
  [0x157, 0x16B, 0x181, 0x198, 0x1B0, 0x1CA, 0x1E5, 0x202, 0x220, 0x241, 0x263, 0x287]

/-- The parameter set of 95_test_vectors.md (`NV = 4`, `F_OUT = 22050`, `NF = 8`, variant A, `PERC_BANKED = 1`,
`CHVOL_RESET = 127`) with the default tables and the baseline `BEND_MAP` (44_opl_allocator.md R264): DESIGN CHOICE, log 1. -/
def standardConfig : Config where
  nv := 4
  fOut := 22050
  nf := 8
  variant := .a
  percBanked := true
  chvolReset := 127
  scaleMap := defaultScaleMap
  adjustMap := defaultAdjustMap
  imaStep := defaultImaStep
  imaIndex := defaultImaIndex
  modOff := defaultModOff
  fnumRow := defaultFnumRow
  fnumRows := []
  bendDefault := ⟨-12, 0⟩
  bendRows := []

/-- `BEND_MAP(bend)` (44_opl_allocator.md R264). -/
def Config.bendMap (c : Config) (bend : BitVec 14) : Bend :=
  ((c.bendRows.find? fun r => r.1 == bend).map (·.2)).getD c.bendDefault

/-- The row `FNUM(d, ·)` (45_fm_register_mapper.md R302). -/
def Config.fnumRowOf (c : Config) (d : BitVec 8) : List Nat :=
  ((c.fnumRows.find? fun r => r.1 == d).map (·.2)).getD c.fnumRow

/-- `FNUM(d, n)` (45_fm_register_mapper.md R302). -/
def Config.fnum (c : Config) (d : BitVec 8) (n : Nat) : Nat := (c.fnumRowOf d).getD n 0

/-- A row of 12 F-numbers of 10 bits each (U16). -/
def fnumRowOk (r : List Nat) : Bool := r.length == 12 && r.all (· < 1024)

/-- No two of the eighteen operator offsets are the same (U16). -/
def modOffOk (m : List Nat) : Bool :=
  m.length == 9 && m.all (· ≤ 0x12) && (m ++ m.map (· + 3)).Nodup

/-- The parameters are in the ranges of 00_scope.md R8 and meet the constraints of U15 and U16. -/
def Config.wf (c : Config) : Bool :=
  (1 ≤ c.nv && c.nv ≤ 256) && (1000 ≤ c.fOut && c.fOut ≤ 1000000) && (1 ≤ c.nf && c.nf ≤ 65536) &&
  (c.scaleMap.length == 64 && c.scaleMap.all fun n => -255 ≤ n && n ≤ 255) &&
  (c.adjustMap.length == 64 && c.adjustMap.all (· ≤ 255)) &&
  (c.imaStep.length == 89 && c.imaStep.all fun n => 1 ≤ n && n ≤ 32767) &&
  (c.imaIndex.length == 8 && c.imaIndex.all fun n => -88 ≤ n && n ≤ 88) &&
  modOffOk c.modOff &&
  (fnumRowOk c.fnumRow && c.fnumRows.all fun r => fnumRowOk r.2) &&
  c.bendMap 8192 == ⟨-12, 0⟩

end Sys2Proof
end

