-- ==== Sys2Proof/Machine/State.lean ====
section
/-! DEFINITION. The state of MDAE (10_state.md), as plain data, and the state after hardware reset (R49). Every field the
spec gives a width is a bit vector of that width. Flags are Bool. -/

namespace Sys2Proof.Machine

/-- The ADPCM state of a voice (10_state.md R35, R39), both variants: only the group of the built variant is used. -/
structure Adpcm where
  /-- `v.ad_ref`, variant A predictor. -/
  ref   : BitVec 8
  /-- `v.ad_scale`, variant A scale. -/
  scale : BitVec 8
  /-- `v.ad_ref0`, variant A initialization sample. -/
  ref0  : BitVec 8
  /-- `v.ad_pred`, variant B predictor, signed. -/
  pred  : BitVec 16
  /-- `v.ad_index`, variant B step index. -/
  index : BitVec 7
  deriving DecidableEq, Repr

/-- One slot of the voice table (10_state.md R35). A source may end at `2^32` (R82, R136): such an address is held as 0 in
the 32 bits of `srcEnd`, `loopEnd` and `srcCur` (DEDUCED, log 7). -/
structure Voice where
  active    : Bool
  looping   : Bool
  srcCur    : BitVec 32
  srcEnd    : BitVec 32
  loopStart : BitVec 32
  loopEnd   : BitVec 32
  /-- `v.lbuf[0..255]` (R38), signed samples, always 256 of them in a state that meets `Inv` (Safety.lean). -/
  lbuf      : List (BitVec 8)
  lcount    : BitVec 9
  /-- 16.16 playback position. -/
  pos       : BitVec 32
  /-- 16.16 step. -/
  step      : BitVec 32
  baseRate  : BitVec 32
  /-- Signed. -/
  pitch     : BitVec 32
  volL      : BitVec 8
  volR      : BitVec 8
  /-- Signed. -/
  prio      : BitVec 32
  f16       : Bool
  fsigned   : Bool
  fadpcm    : Bool
  ad        : Adpcm
  token     : Word
  gen       : BitVec 24
  /-- Signed. -/
  lpPrev    : BitVec 8
  deriving DecidableEq, Repr

/-- The callback queue (10_state.md R40). -/
structure CallbackQueue where
  ent   : Vector Word 32
  head  : BitVec 5
  tail  : BitVec 5
  count : BitVec 6
  deriving DecidableEq, Repr

/-- One of the nine OPL voices (10_state.md R42) with its stored operator levels (R43). `timbre = none` is the spec's -1,
unprogrammed (DESIGN CHOICE, log 8). -/
structure OplVoice where
  active   : Bool
  channel  : BitVec 4
  key      : BitVec 7
  velocity : BitVec 7
  timbre   : Option (BitVec 8)
  keyon    : Bool
  /-- `{block[2:0], fnum[9:0]}`. -/
  pitch    : BitVec 13
  /-- `lvl[k][0]`, modulator. -/
  lvlMod   : BitVec 6
  /-- `lvl[k][1]`, carrier. -/
  lvlCar   : BitVec 6
  /-- `ksl[k][0]`. -/
  kslMod   : BitVec 8
  /-- `ksl[k][1]`. -/
  kslCar   : BitVec 8
  deriving DecidableEq, Repr

/-- One MIDI channel (10_state.md R44). -/
structure Channel where
  timbre    : BitVec 8
  volume    : BitVec 7
  bend      : BitVec 14
  pan       : BitVec 7
  /-- Signed. -/
  keyOffset : BitVec 8
  detune    : BitVec 8
  deriving DecidableEq, Repr

/-- MEM (20_memory.md R72): address and byte pairs in the canonical form of `Memory.wf` (Machine/Ops.lean). -/
abbrev Memory := List Host.Cell

/-- One access the host makes (10_state.md R20 (a), R49): the inputs of the machine (DESIGN CHOICE, log 2). -/
inductive HostAction where
  /-- A 32-bit word write to the byte offset `off` of REG (R24). At offset 0 it runs a command. -/
  | regWrite (off : BitVec 8) (data : Word)
  /-- A 32-bit word read of the byte offset `off` of REG. -/
  | regRead (off : BitVec 8)
  /-- An access of REG of another width, `bytes` bytes (R34, U7). -/
  | regNarrow (off : BitVec 8) (bytes : Nat)
  /-- A byte write to MEM. -/
  | memWrite (addr : Word) (data : Byte)
  /-- A byte read of MEM. -/
  | memRead (addr : Word)
  /-- Hardware reset (R49). -/
  | hwReset
  deriving DecidableEq, Repr

/-- The state of the machine (10_state.md). `cfg`, `hostq`, `hostData` and `freeCtr` are the model's own fields (logs 1, 2,
3, 5). -/
structure State where
  /-- `x[0..15]` (R21). -/
  x         : Vector Word 16
  /-- `RES` (R22). -/
  res       : Word
  /-- `STATUS.BUSY` (R26). -/
  busy      : Bool
  /-- `STATUS.ERR` (R26). -/
  err       : BitVec 8
  /-- `ERRFLAGS[7:0]` (R27). -/
  errflags  : BitVec 8
  /-- `CTRL.REVSTEREO` (R28). -/
  revStereo : Bool
  /-- `CTRL.LPF_EN` (R28). -/
  lpfEn     : Bool
  /-- `CTRL.MUSICGEN` (R28). -/
  musicGen  : Bool
  /-- `MASTERVOL` (R29). -/
  masterVol : BitVec 8
  /-- `MUSICVOL` (R29). -/
  musicVol  : BitVec 8
  /-- `LPF.ALPHA` (R30). -/
  alpha     : BitVec 9
  /-- `LPF.BETA` (R30). -/
  beta      : BitVec 9
  /-- `GEN` (R33). -/
  gen       : BitVec 24
  /-- The voice table, `NV` slots (R35). -/
  voices    : List Voice
  /-- The callback queue (R40). -/
  cbq       : CallbackQueue
  /-- `STATUS.DRAINING` (R41). -/
  draining  : Bool
  /-- `DRAIN_LEFT` (R41). -/
  drainLeft : BitVec 4
  /-- `STATUS.CB_VALID` (R41). -/
  cbValid   : Bool
  /-- `CB_TOKEN` (R32, R41). -/
  cbToken   : Word
  /-- The OPL voice table (R42, R43). -/
  ovoices   : Vector OplVoice 9
  /-- The channel table (R44). -/
  chans     : Vector Channel 16
  /-- The timbre bank `tb[i][j]` at place `13 * i + j` (R45). -/
  tb        : List Byte
  /-- `STATUS.TB_VALID` (R45). -/
  tbValid   : Bool
  /-- The log `OPLW` (R46), oldest first. -/
  oplw      : List (Byte × Byte)
  /-- The log `CBOUT` (R46), oldest first. -/
  cbout     : List Word
  /-- MEM (20_memory.md R72). -/
  mem       : Memory
  /-- The parameters of 00_scope.md R8. -/
  cfg       : Config
  /-- The host accesses still to come, oldest first. -/
  hostq     : List HostAction
  /-- The word the host's last read returned. -/
  hostData  : Word
  /-- How many free-value events have happened. -/
  freeCtr   : Nat
  deriving DecidableEq, Repr

/-- MDAE has no faults (60_exceptions.md R370: no command ever stops the machine), so no constructor: nothing raises one. -/
inductive Fault where
  deriving DecidableEq, Repr

/-- Why the model does not answer a next state. No meaning of a command raises one. All are safe: the model stops where
the spec defines nothing. -/
inductive Refusal where
  /-- A command without a meaning. Raised only by an arm of exec (none is left). Safe. -/
  | notModelled (mnemonic : String)
  /-- The host accessed REG other than by an aligned 32-bit word (10_state.md R34, U7). Raised by the host port. Safe. -/
  | regAccessNotAlignedWord
  /-- The host touched an operand register while `BUSY = 1` (10_state.md R21, R410), which no run reaches. Raised by the
  host port. Safe. -/
  | operandAccessWhileBusy
  /-- The parameters are outside the ranges of 00_scope.md R8 (U15, U16). Raised by step. Safe. -/
  | parametersOutOfRange
  deriving DecidableEq, Repr

/-- What a command's meaning answers. -/
abbrev Result := Host.Outcome State Fault Refusal

/-- A voice slot after hardware reset (10_state.md R49). The fields R49 does not list are unspecified there and 0 here
(DESIGN CHOICE, log 4). -/
def Voice.reset : Voice where
  active := false
  looping := false
  srcCur := 0
  srcEnd := 0
  loopStart := 0
  loopEnd := 0
  lbuf := List.replicate 256 0
  lcount := 0
  pos := 0
  step := 0
  baseRate := 0
  pitch := 0
  volL := 0
  volR := 0
  prio := 0
  f16 := false
  fsigned := false
  fadpcm := false
  ad := ⟨0, 0, 0, 0, 0⟩
  token := 0
  gen := 0
  lpPrev := 0

/-- An OPL voice after reset (10_state.md R42, R43). -/
def OplVoice.reset : OplVoice where
  active := false
  channel := 0
  key := 0
  velocity := 0
  timbre := none
  keyon := false
  pitch := 0
  lvlMod := 0
  lvlCar := 0
  kslMod := 0
  kslCar := 0

/-- A channel after reset (10_state.md R44): volume `CHVOL_RESET`, centre bend and pan, key offset -12. -/
def Channel.reset (c : Config) : Channel where
  timbre := 0
  volume := c.chvolReset
  bend := 8192
  pan := 64
  keyOffset := -12
  detune := 0

/-- The machine with parameters `c` right after hardware reset (10_state.md R49), MEM as log 6 says, no host access
pending. -/
def State.resetWith (c : Config) : State where
  x := Vector.replicate 16 0
  res := 0
  busy := false
  err := 0
  errflags := 0
  revStereo := false
  lpfEn := false
  musicGen := false
  masterVol := 255
  musicVol := 255
  alpha := 256
  beta := 0
  gen := 0
  voices := List.replicate c.nv Voice.reset
  cbq := ⟨Vector.replicate 32 0, 0, 0, 0⟩
  draining := false
  drainLeft := 0
  cbValid := false
  cbToken := 0
  ovoices := Vector.replicate 9 OplVoice.reset
  chans := Vector.replicate 16 (Channel.reset c)
  tb := List.replicate 3328 0
  tbValid := false
  oplw := []
  cbout := []
  mem := []
  cfg := c
  hostq := []
  hostData := 0
  freeCtr := 0

/-- The machine right after hardware reset, with the standard parameters of Machine/Tables.lean (log 1). -/
def State.reset : State := State.resetWith standardConfig

end Sys2Proof.Machine
end

