-- ==== Sys2Proof/Machine/Flags.lean ====
section
/-! DEFINITION. Error codes and sticky flags (60_exceptions.md R371, R372; 10_state.md R27), and the three ways a command
touches them (00_scope.md R15). -/

namespace Sys2Proof.Machine

/-- The reasons a command fails (60_exceptions.md R371). -/
inductive Failure where
  | badCmd
  | badArg
  | badHandle
  | noVoice
  | noTimbre
  deriving DecidableEq, Repr

/-- The value of `STATUS.ERR` for a failure (60_exceptions.md R371). `E_OK` is 0. -/
def Failure.code : Failure → BitVec 8
  | .badCmd    => 1
  | .badArg    => 2
  | .badHandle => 3
  | .noVoice   => 4
  | .noTimbre  => 5

/-- The sticky flags of `ERRFLAGS` (10_state.md R27). -/
inductive Flag where
  | badCmd
  | badArg
  | badHandle
  | noVoice
  | noTimbre
  | cbqOvf
  | refillCap
  | overrun
  deriving DecidableEq, Repr

/-- The bit of a flag as a mask on `ERRFLAGS[7:0]` (10_state.md R27). -/
def Flag.mask : Flag → BitVec 8
  | .badCmd    => 0x01
  | .badArg    => 0x02
  | .badHandle => 0x04
  | .noVoice   => 0x08
  | .noTimbre  => 0x10
  | .cbqOvf    => 0x20
  | .refillCap => 0x40
  | .overrun   => 0x80

/-- The sticky flag of a failure (60_exceptions.md R371). -/
def Failure.flag : Failure → Flag
  | .badCmd    => .badCmd
  | .badArg    => .badArg
  | .badHandle => .badHandle
  | .noVoice   => .noVoice
  | .noTimbre  => .noTimbre

/-- `ERRFLAGS` with a flag set (00_scope.md R15). -/
def raiseFlag (f : Flag) (flags : BitVec 8) : BitVec 8 := flags ||| f.mask

/-- `flag F_x` (00_scope.md R15): the sticky bit is set and the command goes on. -/
def State.flag (s : State) (f : Flag) : State := { s with errflags := raiseFlag f s.errflags }

/-- `fail E_x` (00_scope.md R15): the error code, its sticky flag, `RES <- 0`, nothing else. This is MDAE's one shared
operation in the place of taking an exception (60_exceptions.md R370). -/
def State.fail (s : State) (e : Failure) : State :=
  { s with err := e.code, errflags := raiseFlag e.flag s.errflags, res := 0 }

/-- A command that ends normally (00_scope.md R15, 10_state.md R22): `STATUS.ERR <- 0`, `RES <- r`. -/
def State.complete (s : State) (r : Word) : State := { s with err := 0, res := r }

end Sys2Proof.Machine
end

