-- ==== Sys2Proof/Machine/Operands.lean ====
section
/-! DEFINITION. Operand forms: the operand registers as each command reads them (30_encoding.md R110, R118), the fields of
`fmt` (R105) and of a handle (40_voice_pool.md R131). -/

namespace Sys2Proof.Machine

/-- `x[i]` as an unsigned integer (00_scope.md R14). -/
def State.xu (s : State) (i : Fin 16) : Nat := (s.x.get i).toNat

/-- `s32(x[i])` (00_scope.md R11, 30_encoding.md R110). -/
def State.xs (s : State) (i : Fin 16) : Int := (s.x.get i).toInt

/-- `x[0]` as an address: source pointer, sink buffer or timbre bank (30_encoding.md R118). -/
def State.opAddr (s : State) : Nat := s.xu 0

/-- `x[0]` as a handle (30_encoding.md R118). -/
def State.opHandle (s : State) : Word := s.x.get 0

/-- `x[1]`, source length in bytes. -/
def State.opLen (s : State) : Nat := s.xu 1

/-- `x[2]`, source rate in Hz; 0 means not supplied and stands for 11025 (40_voice_pool.md R136, R145). -/
def State.opRate (s : State) : Nat := if s.xu 2 = 0 then 11025 else s.xu 2

/-- `x[3]`, pitch offset, signed. -/
def State.opPitch (s : State) : Int := s.xs 3

/-- `x[4]`, generic volume, signed. -/
def State.opVol (s : State) : Int := s.xs 4

/-- `x[5]`, left volume, signed. -/
def State.opLeft (s : State) : Int := s.xs 5

/-- `x[6]`, right volume, signed. -/
def State.opRight (s : State) : Int := s.xs 6

/-- `x[7]`, priority, signed. -/
def State.opPrio (s : State) : Int := s.xs 7

/-- `x[8]`, callback token, opaque. -/
def State.opToken (s : State) : Word := s.x.get 8

/-- `x[9]`, loop start as a byte offset from the source pointer. -/
def State.opLoopStart (s : State) : Nat := s.xu 9

/-- `x[10]`, loop end as a byte offset from the source pointer, exclusive. -/
def State.opLoopEnd (s : State) : Nat := s.xu 10

/-- `fmt[0] = F16` (30_encoding.md R105). -/
def fmtF16 (fmt : BitVec 4) : Bool := fmt.getLsbD 0

/-- `fmt[1] = SGN` (30_encoding.md R105). -/
def fmtSigned (fmt : BitVec 4) : Bool := fmt.getLsbD 1

/-- `fmt[2] = ADP` (30_encoding.md R105). -/
def fmtAdpcm (fmt : BitVec 4) : Bool := fmt.getLsbD 2

/-- `fmt[3] = LOOP` (30_encoding.md R105). -/
def fmtLoop (fmt : BitVec 4) : Bool := fmt.getLsbD 3

/-- The generation of a handle, `h[31:8]` (40_voice_pool.md R131). -/
def handleGen (h : Word) : BitVec 24 := h.extractLsb' 8 24

/-- The slot of a handle, `h[7:0]` (40_voice_pool.md R131). -/
def handleSlot (h : Word) : Nat := (h.extractLsb' 0 8).toNat

/-- The handle of a generation and a slot, `{g[23:0], s[7:0]}` (40_voice_pool.md R131). -/
def mkHandle (g : BitVec 24) (slot : Nat) : Word := g ++ BitVec.ofNat 8 slot

/-- The row of the channel table a MIDI channel number selects. -/
def State.chan (s : State) (ch : BitVec 4) : Channel := s.chans.get ch.toFin

/-- The OPL voice an inline `vo` selects, when it is 0..8 (30_encoding.md R108). -/
def voSlot (vo : BitVec 4) : Option (Fin 9) := if h : vo.toNat < 9 then some ⟨vo.toNat, h⟩ else none

end Sys2Proof.Machine
end

