-- ==== Sys2Proof/Machine/Ops.lean ====
section
/-! DEFINITION. The named operations: arithmetic primitives (00_scope.md R12), MEM (20_memory.md), the callback queue and
drain session (43_callback_queue.md), the OPL write port (R74), the register window (10_state.md R24) and reset (R49). MDAE
takes no exceptions and has no return from one (60_exceptions.md R377): `State.fail` in Flags.lean is what it has. -/

namespace Sys2Proof.Machine

/-- `clamp(v, lo, hi)` (00_scope.md R12). -/
def clamp (v lo hi : Int) : Int := if v < lo then lo else if v > hi then hi else v

/-! ### MEM -/

/-- What an address that the memory list does not name reads as: no value is known, so a free one that is the same at every
read until a write there (20_memory.md R84: a model must not assume a value; DESIGN CHOICE, log 6). -/
def Memory.unlisted (a : Nat) : Byte := Config.freeByte a

/-- `MemRead(a, 1)` (00_scope.md R14, 20_memory.md R84). -/
def Memory.read : Memory → Nat → Byte
  | [], a => Memory.unlisted a
  | (k, c) :: m, a => if a = k then c else Memory.read m a

/-- `MemWrite(a, 1, b)`, keeping the canonical form. -/
def Memory.write : Memory → Nat → Byte → Memory
  | [], a, b => [(a, b)]
  | (k, c) :: m, a, b =>
    if a < k then (a, b) :: (k, c) :: m
    else if a = k then (a, b) :: m
    else (k, c) :: Memory.write m a b

/-- The canonical form: addresses strictly rising and inside the 32-bit space. An unlisted address has no known value, so no
entry repeats what it reads as, and two lists of the same known bytes are equal (log 6). -/
abbrev Memory.wf (m : Memory) : Prop := m.Pairwise (fun e f => e.1 < f.1) ∧ ∀ e ∈ m, e.1 < 2 ^ 32

/-- `MemRead(a, 2)`, little-endian (20_memory.md R76). -/
def Memory.read16 (m : Memory) (a : Nat) : BitVec 16 := m.read (a + 1) ++ m.read a

/-- `MemWrite(a, 2, v)`, little-endian (20_memory.md R76). -/
def Memory.write16 (m : Memory) (a : Nat) (v : BitVec 16) : Memory :=
  (m.write a (v.extractLsb' 0 8)).write (a + 1) (v.extractLsb' 8 8)

/-- `n` bytes from address `a` up. -/
def Memory.readBytes (m : Memory) (a : Nat) : Nat → List Byte
  | 0 => []
  | n + 1 => m.read a :: m.readBytes (a + 1) n

/-! ### Callback queue and drain session -/

/-- `enqueue(t)` (43_callback_queue.md R231) when the queue is not full. -/
def CallbackQueue.push (q : CallbackQueue) (t : Word) : CallbackQueue where
  ent := q.ent.set q.tail.toNat t
  head := q.head
  tail := q.tail + 1
  count := q.count + 1

/-- The queue is full at `count = 32` (43_callback_queue.md R231). -/
def CallbackQueue.full (q : CallbackQueue) : Bool := q.count == 32

/-- The queue after `enqueue(t)`: a full queue drops the new token (43_callback_queue.md R231). -/
def CallbackQueue.enqueue (q : CallbackQueue) (t : Word) : CallbackQueue := if q.full then q else q.push t

/-- `ERRFLAGS` after `enqueue(t)` into `q` (43_callback_queue.md R231): a drop sets `F_CBQ_OVF`. -/
def enqueueFlags (q : CallbackQueue) (flags : BitVec 8) : BitVec 8 := if q.full then raiseFlag .cbqOvf flags else flags

/-- The oldest token (43_callback_queue.md R232). -/
def CallbackQueue.front (q : CallbackQueue) : Word := q.ent.get q.head.toFin

/-- The queue after `pop()` (43_callback_queue.md R232). -/
def CallbackQueue.pop (q : CallbackQueue) : CallbackQueue := { q with head := q.head + 1, count := q.count - 1 }

/-- `enqueue(t)` (43_callback_queue.md R231). -/
def State.enqueue (s : State) (t : Word) : State :=
  { s with cbq := s.cbq.enqueue t, errflags := enqueueFlags s.cbq s.errflags }

/-- `CbDeliver(t)` (43_callback_queue.md R236, 20_memory.md R75). -/
def State.cbDeliver (s : State) (t : Word) : State :=
  { s with cbToken := t, cbValid := true, cbout := s.cbout ++ [t] }

/-- `advance()` (43_callback_queue.md R233): deliver the next token, or close the session. -/
def State.advance (s : State) : State :=
  if s.cbq.count ≠ 0 ∧ s.drainLeft ≠ 0 then
    State.cbDeliver { s with cbq := s.cbq.pop, drainLeft := s.drainLeft - 1 } s.cbq.front
  else { s with draining := false, cbValid := false, drainLeft := 0 }

/-! ### OPL write port -/

/-- `OplWrite(reg, val)` (20_memory.md R74). -/
def State.oplWrite (s : State) (reg val : Byte) : State := { s with oplw := s.oplw ++ [(reg, val)] }

/-- `ovoice[k] <- o`. -/
def State.setOvoice (s : State) (k : Fin 9) (o : OplVoice) : State := { s with ovoices := s.ovoices.set k o }

/-- The OPL voices in scan order (00_scope.md R16). -/
def oplSlots : List (Fin 9) := [0, 1, 2, 3, 4, 5, 6, 7, 8]

/-- `for k in 0 .. 8`, ascending (00_scope.md R16). -/
def State.forOplSlots (s : State) (f : State → Fin 9 → State) : State := oplSlots.foldl f s

/-! ### Voice table -/

/-- `voice[i] <- v`. -/
def State.setVoice (s : State) (i : Nat) (v : Voice) : State := { s with voices := s.voices.set i v }

/-! ### Register window -/

/-- `STATUS` (10_state.md R26). -/
def State.statusWord (s : State) : Word :=
  0#16 ++ s.err ++ 0#4 ++ BitVec.ofBool s.tbValid ++ BitVec.ofBool s.cbValid ++ BitVec.ofBool s.draining ++
    BitVec.ofBool s.busy

/-- `CTRL` (10_state.md R28). -/
def State.ctrlWord (s : State) : Word :=
  0#29 ++ BitVec.ofBool s.musicGen ++ BitVec.ofBool s.lpfEn ++ BitVec.ofBool s.revStereo

/-- `LPF` (10_state.md R30). -/
def State.lpfWord (s : State) : Word := 0#7 ++ s.beta ++ 0#7 ++ s.alpha

/-- `CBQ_STAT` (10_state.md R32). -/
def State.cbqStatWord (s : State) : Word :=
  0#4 ++ s.drainLeft ++ 0#3 ++ s.cbq.tail ++ 0#3 ++ s.cbq.head ++ 0#2 ++ s.cbq.count

/-- `CONFIG` (10_state.md R31). -/
def State.configWord (s : State) : Word :=
  0#14 ++ BitVec.ofBool s.cfg.percBanked ++ BitVec.ofBool (s.cfg.variant == .b) ++ 0#7 ++ BitVec.ofNat 9 s.cfg.nv

/-- The operand register at a byte offset of REG, `0x40 + 4*i` (10_state.md R24). -/
def regOperand (off : BitVec 8) : Option (Fin 16) :=
  if 0x40 ≤ off.toNat ∧ off.toNat < 0x80 then some (Fin.ofNat 16 ((off.toNat - 0x40) / 4)) else none

/-- The word a host read of an aligned offset returns (10_state.md R24, R34): `CMD` and reserved offsets read 0. -/
def State.readReg (s : State) (off : BitVec 8) : Word :=
  match regOperand off with
  | some i => s.x.get i
  | none =>
    match off.toNat with
    | 0x04 => s.statusWord
    | 0x08 => s.res
    | 0x0C => 0#24 ++ s.errflags
    | 0x10 => s.ctrlWord
    | 0x14 => 0#24 ++ s.masterVol
    | 0x18 => 0#24 ++ s.musicVol
    | 0x1C => s.lpfWord
    | 0x20 => s.cbqStatWord
    | 0x24 => s.cbToken
    | 0x28 => 0#8 ++ s.gen
    | 0x2C => s.configWord
    | 0x30 => BitVec.ofNat 32 s.cfg.fOut
    | 0x34 => BitVec.ofNat 32 s.cfg.nf
    | 0x38 => 0x4D444145
    | _ => 0

/-- The R registers of 10_state.md R24, whose reads are unspecified while `BUSY = 1` (93_implementation_defined.md U8). -/
def regIsMirror (off : BitVec 8) : Bool := 0x04 ≤ off.toNat && off.toNat < 0x3C

/-! ### Reset -/

/-- A voice slot after the `event`-th reset of a run (10_state.md R49): the fields R49 lists at their values, every other a
free value (log 5). -/
def Voice.cleared (event slot : Nat) : Voice :=
  let at' (field : Nat) : Nat := slot * 512 + field
  let bits (w field : Nat) : BitVec w := Config.freeBits w event (at' field)
  { active := false
    looping := bits 1 0 == 1
    srcCur := bits 32 1
    srcEnd := bits 32 2
    loopStart := bits 32 3
    loopEnd := bits 32 4
    lbuf := (List.range 256).map fun k => bits 8 (256 + k)
    lcount := 0
    pos := 0
    step := 0
    baseRate := bits 32 5
    pitch := bits 32 6
    volL := bits 8 7
    volR := bits 8 8
    prio := bits 32 9
    f16 := bits 1 10 == 1
    fsigned := bits 1 11 == 1
    fadpcm := bits 1 12 == 1
    ad := ⟨bits 8 13, bits 8 14, bits 8 15, bits 16 16, bits 7 17⟩
    token := bits 32 18
    gen := 0
    lpPrev := 0 }

/-- The queue after the `event`-th reset (10_state.md R49): empty, entries free values. -/
def CallbackQueue.cleared (event : Nat) : CallbackQueue where
  ent := Vector.ofFn fun k => Config.freeBits 32 event (1000000 + k.val)
  head := 0
  tail := 0
  count := 0

/-- The timbre bank after the `event`-th reset (10_state.md R49): free values. -/
def tbCleared (event : Nat) : List Byte := (List.range 3328).map fun j => Config.freeBits 8 event (2000000 + j)

/-- What `RESET` and hardware reset have in common (10_state.md R49, R50): every state element but `x[0..15]`, the logs and
the host's MEM at its reset value, the unspecified ones at free values (log 5). -/
def State.cleared (s : State) : State :=
  let r := State.resetWith s.cfg
  { r with
    x := s.x
    voices := (List.range s.cfg.nv).map (Voice.cleared s.freeCtr)
    cbq := CallbackQueue.cleared s.freeCtr
    tb := tbCleared s.freeCtr
    oplw := s.oplw
    cbout := s.cbout
    mem := s.mem
    hostq := s.hostq
    hostData := s.hostData
    freeCtr := s.freeCtr + 1 }

/-- Hardware reset in a run (10_state.md R49, R50): operand registers zero, logs empty, MEM and the host's plans kept
(log 18). -/
def State.hardwareReset (s : State) : State :=
  { s.cleared with x := Vector.replicate 16 0, oplw := [], cbout := [] }

end Sys2Proof.Machine
end

