-- ==== Sys2Proof/Machine/Callback.lean ====
section
/-! DEFINITION. The drain handshake (43_callback_queue.md). -/

namespace Sys2Proof.Machine

/-- `CB_VALID` as a result word (43_callback_queue.md R234, R235). -/
def State.cbValidWord (s : State) : Word := if s.cbValid then 1 else 0

/-- A drain session is opened with the budget `DRAIN_MAX = 8` (43_callback_queue.md R234, 00_scope.md R7). -/
def State.openDrain (s : State) : State := { s with draining := true, drainLeft := 8 }

/-- `DRAIN` (43_callback_queue.md R234): a nested drain is a no-op. -/
def execDrain (s : State) : Result :=
  if s.draining then .next (s.complete 0)
  else
    let t := s.openDrain.advance
    .next (t.complete t.cbValidWord)

/-- `CBACK` (43_callback_queue.md R235): outside a session, or with no token presented, a no-op. -/
def execCback (s : State) : Result :=
  if s.draining && s.cbValid then
    let t := s.advance
    .next (t.complete t.cbValidWord)
  else .next (s.complete 0)

end Sys2Proof.Machine
end

