-- ==== Sys2Proof/Machine/FmMapper.lean ====
section
/-! DEFINITION. The FM register mapper and the timbre bank (45_fm_register_mapper.md), with `KeyOff` of
44_opl_allocator.md R255. -/

namespace Sys2Proof.Machine

/-- `tb[i][j]` (10_state.md R45, 45_fm_register_mapper.md R292). -/
def State.tbByte (s : State) (i : BitVec 8) (j : Nat) : Byte := s.tb.getD (13 * i.toNat + j) 0

/-- `mo = MOD_OFF[k]` (45_fm_register_mapper.md R294). -/
def State.modOffset (s : State) (k : Fin 9) : Byte := BitVec.ofNat 8 (s.cfg.modOff.getD k 0)

/-- `co = MOD_OFF[k] + 3` (45_fm_register_mapper.md R294). -/
def State.carOffset (s : State) (k : Fin 9) : Byte := BitVec.ofNat 8 (s.cfg.modOff.getD k 0 + 3)

/-- A per-voice register address, `base + k` (45_fm_register_mapper.md R293). -/
def voiceReg (base : Byte) (k : Fin 9) : Byte := base + BitVec.ofNat 8 k

/-- The value of register 0xB0 + k: key-on in bit 5, block in bits 4:2, F-number bits 9:8 in bits 1:0
(45_fm_register_mapper.md R293). -/
def keyByte (keyon : Bool) (pitch : BitVec 13) : Byte := 0#2 ++ BitVec.ofBool keyon ++ pitch.extractLsb' 8 5

/-- The value of register 0xA0 + k: F-number bits 7:0 (45_fm_register_mapper.md R293). -/
def freqByte (pitch : BitVec 13) : Byte := pitch.extractLsb' 0 8

/-- `KeyOff(k)` (44_opl_allocator.md R255). -/
def State.keyOff (s : State) (k : Fin 9) : State :=
  let o := s.ovoices.get k
  (s.setOvoice k { o with keyon := false }).oplWrite (voiceReg 0xB0 k) (keyByte false o.pitch)

/-- `KeyOff(k)` and `ovoice[k].active <- 0`, as every release does (44_opl_allocator.md R258, R262, R267). -/
def State.release (s : State) (k : Fin 9) : State :=
  let o := s.ovoices.get k
  (s.setOvoice k { o with keyon := false, active := false }).oplWrite (voiceReg 0xB0 k) (keyByte false o.pitch)

/-- Do `f` for each active OPL voice, in voice order (00_scope.md R16). -/
def State.forActiveSlots (s : State) (f : State → Fin 9 → State) : State :=
  s.forOplSlots fun t k => if (t.ovoices.get k).active then f t k else t

/-- The eleven writes of `SetVoiceTimbre(k, i)`, in the order of 45_fm_register_mapper.md R296. -/
def State.timbreWrites (s : State) (k : Fin 9) (i : BitVec 8) : List (Byte × Byte) :=
  let mo := s.modOffset k
  let co := s.carOffset k
  [(0x40 + co, 0x3F),
   (0x20 + mo, s.tbByte i 0),
   (0x40 + mo, s.tbByte i 2),
   (0x60 + mo, s.tbByte i 4),
   (0x80 + mo, s.tbByte i 6),
   (0xE0 + mo, s.tbByte i 8),
   (voiceReg 0xC0 k, s.tbByte i 10 &&& 0x0F),
   (0x20 + co, s.tbByte i 1),
   (0x60 + co, s.tbByte i 5),
   (0x80 + co, s.tbByte i 7),
   (0xE0 + co, s.tbByte i 9)]

/-- The stored loudness of a level byte, `63 - (b & 0x3F)` (45_fm_register_mapper.md R296). -/
def loudness (b : Byte) : BitVec 6 := 63 - b.extractLsb' 0 6

/-- `SetVoiceTimbre(k, i)` (45_fm_register_mapper.md R296). -/
def State.setVoiceTimbre (s : State) (k : Fin 9) (i : BitVec 8) : State :=
  let o := s.ovoices.get k
  State.setOvoice { s with oplw := s.oplw ++ s.timbreWrites k i } k
    { o with
      lvlMod := loudness (s.tbByte i 2)
      kslMod := s.tbByte i 2 &&& 0xC0
      lvlCar := loudness (s.tbByte i 3)
      kslCar := s.tbByte i 3 &&& 0xC0
      timbre := some i }

/-- The loudness of an operator (45_fm_register_mapper.md R298): D0's formula, then the master music volume. -/
def scaledLevel (lvl : BitVec 6) (vel : Nat) (volume : BitVec 7) (musicVol : BitVec 8) : Nat :=
  lvl.toNat * (vel + 0x80) * volume.toNat / 2 ^ 15 * (musicVol.toNat + 1) / 256

/-- The level register's value: attenuation `63 - a` and the stored key-scale bits (45_fm_register_mapper.md R298). -/
def levelByte (a : Nat) (ksl : BitVec 8) : Byte := BitVec.ofNat 8 (63 - a) ||| ksl

/-- The effective velocity (45_fm_register_mapper.md R298): velocity plus sensitivity, clamped to 0..127. -/
def effVelocity (velocity : BitVec 7) (sens : Byte) : Nat := (clamp (velocity.toNat + sens.toInt) 0 127).toNat

/-- The level writes of `SetVoiceVolume(k)` for a voice programmed with timbre `i` (45_fm_register_mapper.md R298): the
carrier, and the modulator too when the connection is additive. -/
def State.volumeWrites (s : State) (k : Fin 9) (i : BitVec 8) : List (Byte × Byte) :=
  let o := s.ovoices.get k
  let volume := (s.chan o.channel).volume
  let vel := effVelocity o.velocity (s.tbByte i 12)
  (0x40 + s.carOffset k, levelByte (scaledLevel o.lvlCar vel volume s.musicVol) o.kslCar) ::
    if (s.tbByte i 10).getLsbD 0 then
      [(0x40 + s.modOffset k, levelByte (scaledLevel o.lvlMod vel volume s.musicVol) o.kslMod)]
    else []

/-- `SetVoiceVolume(k)` (45_fm_register_mapper.md R298). It requires a programmed voice; on an unprogrammed one, which no
caller hands it in a reachable state, it does nothing (DESIGN CHOICE, log 12). -/
def State.setVoiceVolume (s : State) (k : Fin 9) : State :=
  match (s.ovoices.get k).timbre with
  | some i => { s with oplw := s.oplw ++ s.volumeWrites k i }
  | none   => s

/-- The note of voice `k` before the clamp, for timbre `i` (45_fm_register_mapper.md R300). -/
def State.rawNote (s : State) (o : OplVoice) (i : BitVec 8) : Int :=
  (if o.channel = 9 ∧ s.cfg.percBanked then (s.tbByte i 11).toInt else (o.key.toNat : Int) + (s.tbByte i 11).toInt) +
    (s.chan o.channel).keyOffset.toInt

/-- The pitch word `{block[2:0], fnum[9:0]}` of a note 0..95 (45_fm_register_mapper.md R300). -/
def pitchWord (c : Config) (detune : BitVec 8) (note : Nat) : BitVec 13 :=
  BitVec.ofNat 3 (note / 12) ++ BitVec.ofNat 10 (c.fnum detune (note % 12))

/-- `o.pitch` as `SetVoicePitch(k)` computes it (45_fm_register_mapper.md R300). -/
def State.voicePitch (s : State) (o : OplVoice) (i : BitVec 8) : BitVec 13 :=
  pitchWord s.cfg (s.chan o.channel).detune (clamp (s.rawNote o i) 0 95).toNat

/-- `SetVoicePitch(k)` (45_fm_register_mapper.md R300). As `setVoiceVolume`, it requires a programmed voice (log 12). -/
def State.setVoicePitch (s : State) (k : Fin 9) : State :=
  let o := s.ovoices.get k
  match o.timbre with
  | some i =>
    let p := s.voicePitch o i
    (((s.setOvoice k { o with pitch := p }).oplWrite (voiceReg 0xA0 k) (freqByte p)).oplWrite
      (voiceReg 0xB0 k) (keyByte o.keyon p))
  | none => s

/-- `TBLOAD` (45_fm_register_mapper.md R291): silence, copy, mark every voice unprogrammed. -/
def execTbload (s : State) : Result :=
  if 2 ^ 32 < s.opAddr + 3328 then .next (s.fail .badArg)
  else
    let t := s.forActiveSlots State.release
    .next (State.complete
      { t with
        tb := s.mem.readBytes s.opAddr 3328
        ovoices := t.ovoices.map fun o => { o with timbre := none }
        tbValid := true } 0)

/-- `OVTIMBRE vo, tim` (45_fm_register_mapper.md R295). -/
def execOvtimbre (vo : BitVec 4) (tim : BitVec 8) (s : State) : Result :=
  match voSlot vo with
  | none   => .next (s.fail .badArg)
  | some k => if s.tbValid then .next ((s.setVoiceTimbre k tim).complete 0) else .next (s.fail .noTimbre)

/-- OPL voice `k` can be rewritten: the bank is loaded and the voice is programmed (45_fm_register_mapper.md R297, R299;
44_opl_allocator.md R256). -/
def State.programmed (s : State) (k : Fin 9) : Bool := s.tbValid && (s.ovoices.get k).timbre.isSome

/-- `OVVOLUME vo` (45_fm_register_mapper.md R297). -/
def execOvvolume (vo : BitVec 4) (s : State) : Result :=
  match voSlot vo with
  | none   => .next (s.fail .badArg)
  | some k => if s.programmed k then .next ((s.setVoiceVolume k).complete 0) else .next (s.fail .noTimbre)

/-- `OVPITCH vo` (45_fm_register_mapper.md R299). -/
def execOvpitch (vo : BitVec 4) (s : State) : Result :=
  match voSlot vo with
  | none   => .next (s.fail .badArg)
  | some k =>
    if s.programmed k then
      let t := s.setVoicePitch k
      .next (t.complete (0#19 ++ (t.ovoices.get k).pitch))
    else .next (s.fail .noTimbre)

/-- `SETMUSICVOL imm8` (45_fm_register_mapper.md R301). -/
def execSetmusicvol (imm8 : BitVec 8) (s : State) : Result :=
  .next ((State.forActiveSlots { s with musicVol := imm8 } State.setVoiceVolume).complete 0)

end Sys2Proof.Machine
end

