-- ==== Sys2Proof/Machine/Refill.lean ====
section
/-! DEFINITION. The refill unit, PCM conversion and the ADPCM decoder (41_refill_adpcm.md). Functions of one voice, the
parameters and MEM. -/

namespace Sys2Proof.Machine

/-- `pcm8(b, sgn)` (41_refill_adpcm.md R173): signed bytes pass through, unsigned bytes lose 128. -/
def pcm8 (b : Byte) (sgn : Bool) : BitVec 8 := if sgn then b else b - 128

/-- `adpcm_decode(i, n)`, variant A (41_refill_adpcm.md R176): the next decoder state and the sample. -/
def adpcmDecodeA (c : Config) (ad : Adpcm) (n : BitVec 4) : Adpcm × BitVec 8 :=
  let idx := min (n.toNat + ad.scale.toNat) 63
  let ref : BitVec 8 := BitVec.ofInt 8 (clamp (ad.ref.toNat + c.scaleMap.getD idx 0) 0 255)
  let scale : BitVec 8 := BitVec.ofNat 8 (ad.scale.toNat + c.adjustMap.getD idx 0)
  ({ ad with ref := ref, scale := scale }, ref - 128)

/-- `diff` of variant B (41_refill_adpcm.md R180). -/
def imaDiff (step : Nat) (n : BitVec 4) : Nat :=
  step / 8 + (if n.getLsbD 2 then step else 0) + (if n.getLsbD 1 then step / 2 else 0) +
    (if n.getLsbD 0 then step / 4 else 0)

/-- `adpcm_decode(i, n)`, variant B (41_refill_adpcm.md R180). -/
def adpcmDecodeB (c : Config) (ad : Adpcm) (n : BitVec 4) : Adpcm × BitVec 8 :=
  let diff := imaDiff (c.imaStep.getD ad.index.toNat 0) n
  let moved : Int := if n.getLsbD 3 then ad.pred.toInt - diff else ad.pred.toInt + diff
  let pred : BitVec 16 := BitVec.ofInt 16 (clamp moved (-32768) 32767)
  let index : BitVec 7 :=
    BitVec.ofInt 7 (clamp (ad.index.toNat + c.imaIndex.getD (n.extractLsb' 0 3).toNat 0) 0 88)
  ({ ad with pred := pred, index := index }, pred.extractLsb' 8 8)

/-- `adpcm_decode(i, n)` of the built variant (41_refill_adpcm.md R174). -/
def adpcmDecode (c : Config) (ad : Adpcm) (n : BitVec 4) : Adpcm × BitVec 8 :=
  match c.variant with
  | .a => adpcmDecodeA c ad n
  | .b => adpcmDecodeB c ad n

/-- `nb` source bytes from address `a`, two samples each, the high code first (41_refill_adpcm.md R171, R174). -/
def adpcmRun (c : Config) (m : Memory) : Nat → Nat → Adpcm → Adpcm × List (BitVec 8)
  | 0, _, ad => (ad, [])
  | nb + 1, a, ad =>
    let byte := m.read a
    let hi := adpcmDecode c ad (byte.extractLsb' 4 4)
    let lo := adpcmDecode c hi.1 (byte.extractLsb' 0 4)
    let rest := adpcmRun c m nb (a + 1) lo.1
    (rest.1, hi.2 :: lo.2 :: rest.2)

/-- `n` PCM samples of `unit` bytes each from address `a`: the last byte of each unit, converted (41_refill_adpcm.md R171,
R173). -/
def pcmRun (m : Memory) (unit : Nat) (sgn : Bool) (a : Nat) : Nat → List (BitVec 8)
  | 0 => []
  | n + 1 => pcm8 (m.read (a + (unit - 1))) sgn :: pcmRun m unit sgn (a + unit) n

/-- `adpcm_start(i)` (41_refill_adpcm.md R175 for variant A, R179 for variant B). -/
def Voice.adpcmStart (v : Voice) (c : Config) (m : Memory) : Voice :=
  match c.variant with
  | .a =>
    let b := m.read v.srcCur.toNat
    { v with ad := { v.ad with ref0 := b, ref := b, scale := 0 }, srcCur := v.srcCur + 1 }
  | .b => { v with ad := { v.ad with pred := 0, index := 0 } }

/-- `adpcm_loop_reset(i)` (41_refill_adpcm.md R178 for variant A, R182 for variant B). -/
def Adpcm.loopReset (ad : Adpcm) (c : Config) : Adpcm :=
  match c.variant with
  | .a => { ad with ref := ad.ref0, scale := 0 }
  | .b => { ad with pred := 0, index := 0 }

/-- Source bytes per decode unit (41_refill_adpcm.md R171). -/
def Voice.unit (v : Voice) : Nat := if v.f16 then 2 else 1

/-- The effective end of the source (41_refill_adpcm.md R171, R172). -/
def Voice.effEnd (v : Voice) : BitVec 32 := if v.looping then v.loopEnd else v.srcEnd

/-- Source bytes left before the effective end, `eff_end - v.src_cur` (41_refill_adpcm.md R171). The difference of the two
32-bit registers is the exact one in a state that meets I3 of 10_state.md R36, also where the end is `2^32` (logs 7, 13). -/
def Voice.bytesLeft (v : Voice) : Nat := (v.effEnd - v.srcCur).toNat

/-- Whole units left before the effective end (41_refill_adpcm.md R171). -/
def Voice.unitsLeft (v : Voice) : Nat := v.bytesLeft / v.unit

/-- The rewind at the end of a loop (41_refill_adpcm.md R172). -/
def Voice.rewind (v : Voice) (c : Config) : Voice :=
  { v with srcCur := v.loopStart, ad := if v.fadpcm then v.ad.loopReset c else v.ad }

/-- New samples replace the first entries of the local buffer (41_refill_adpcm.md R171; 10_state.md R38: the rest keep
what they held). -/
def Voice.load (v : Voice) (samples : List (BitVec 8)) (bytes : Nat) : Voice :=
  { v with
    lbuf := samples ++ v.lbuf.drop samples.length
    srcCur := v.srcCur + BitVec.ofNat 32 bytes
    lcount := BitVec.ofNat 9 samples.length }

/-- The copying part of `refill` (41_refill_adpcm.md R171): up to 128 ADPCM bytes or 256 PCM samples. -/
def Voice.fill (v : Voice) (c : Config) (m : Memory) : Voice :=
  if v.fadpcm then
    let nb := min 128 v.unitsLeft
    let run := adpcmRun c m nb v.srcCur.toNat v.ad
    { v.load run.2 nb with ad := run.1 }
  else
    let n := min 256 v.unitsLeft
    v.load (pcmRun m v.unit v.fsigned v.srcCur.toNat n) (n * v.unit)

/-- `refill(i)` (41_refill_adpcm.md R171). The number it returns is the new `lcount`. -/
def Voice.refill (v : Voice) (c : Config) (m : Memory) : Voice :=
  if v.unitsLeft = 0 then
    if v.looping then (v.rewind c).fill c m else { v with lcount := 0 }
  else v.fill c m

end Sys2Proof.Machine
end

