-- ==== Sys2Proof/Machine/VoicePool.lean ====
section
/-! DEFINITION. The voice-pool arbiter and its commands (40_voice_pool.md). -/

namespace Sys2Proof.Machine

/-- `lookup(h)` (40_voice_pool.md R132): the slot and its voice, or none for a bad handle. -/
def State.lookup (s : State) (h : Word) : Option (Nat × Voice) :=
  if handleGen h = 0 ∨ s.cfg.nv ≤ handleSlot h then none
  else
    match s.voices[handleSlot h]? with
    | some v => if v.gen = handleGen h then some (handleSlot h, v) else none
    | none   => none

/-- Scan 2 of `allocate` (40_voice_pool.md R133) over the slots from `i` on: the slot of lowest priority, the first on
ties, and its priority. -/
def lowestPrio : List Voice → Nat → Nat → Int → Nat × Int
  | [], _, best, bestPrio => (best, bestPrio)
  | v :: vs, i, best, bestPrio =>
    if v.prio.toInt < bestPrio then lowestPrio vs (i + 1) i v.prio.toInt else lowestPrio vs (i + 1) best bestPrio

/-- `allocate(prio)` (40_voice_pool.md R133): the first inactive slot, else the slot of strictly lowest priority if that is
below the request's. -/
def allocate (vs : List Voice) (prio : Int) : Option Nat :=
  match vs.findIdx? (fun v => !v.active) with
  | some i => some i
  | none =>
    match vs with
    | [] => none
    | v :: rest =>
      let best := lowestPrio rest 1 0 v.prio.toInt
      if best.2 < prio then some best.1 else none

/-- One channel of `setvol` (40_voice_pool.md R137): `clamp(n * 4, 0, 255)`, exact. -/
def volByte (n : Int) : BitVec 8 := BitVec.ofInt 8 (clamp (n * 4) 0 255)

/-- `setvol(vol, left, right)` (40_voice_pool.md R137). -/
def setvol (vol left right : Int) : BitVec 8 × BitVec 8 :=
  if left ≤ 0 ∧ right ≤ 0 then (volByte vol, volByte vol) else (volByte left, volByte right)

/-- `calcstep(rate, pitch)` (40_voice_pool.md R138): pitch adjustment truncated toward zero, clamped, and the 16.16 step
rounded to nearest. -/
def calcstep (c : Config) (rate : Nat) (pitch : Int) : BitVec 32 :=
  let adj := clamp (rate + ((rate : Int) * pitch).tdiv 2048) 1000 48000
  BitVec.ofInt 32 ((adj * 65536 + (c.fOut / 2 : Nat)) / (c.fOut : Int))

/-- `finalize(i)` (40_voice_pool.md R134): deactivate the voice and enqueue its token. -/
def State.finalize (s : State) (i : Nat) (v : Voice) : State :=
  (s.setVoice i { v with active := false }).enqueue v.token

/-- Bytes of initialization sample in front of the source (40_voice_pool.md R136). -/
def playHdr (c : Config) (fmt : BitVec 4) : Nat := if fmtAdpcm fmt ∧ c.variant = .a then 1 else 0

/-- Bytes per decode unit (40_voice_pool.md R136). -/
def playUnit (fmt : BitVec 4) : Nat := if fmtF16 fmt then 2 else 1

/-- The argument checks of `PLAY` (40_voice_pool.md R136, part 1). All four fail with the same code, so their order shows
only against the arbitration. -/
def playArgsOk (fmt : BitVec 4) (s : State) : Bool :=
  let hdr := playHdr s.cfg fmt
  let unit := playUnit fmt
  !(fmtAdpcm fmt && (fmtF16 fmt || fmtSigned fmt)) &&
  s.opAddr + s.opLen ≤ 2 ^ 32 &&
  hdr + unit ≤ s.opLen &&
  (!fmtLoop fmt || (hdr ≤ s.opLoopStart && s.opLoopStart + unit ≤ s.opLoopEnd && s.opLoopEnd ≤ s.opLen))

/-- The slot set-up of `init_voice` (40_voice_pool.md R139) before the decoder start and the prefill. -/
def Voice.programmed (v : Voice) (fmt : BitVec 4) (s : State) : Voice :=
  let vols := setvol s.opVol s.opLeft s.opRight
  { v with
    active := true
    token := s.opToken
    prio := s.x.get 7
    f16 := fmtF16 fmt
    fsigned := fmtSigned fmt
    fadpcm := fmtAdpcm fmt
    baseRate := BitVec.ofNat 32 s.opRate
    pitch := s.x.get 3
    step := calcstep s.cfg s.opRate s.opPitch
    volL := vols.1
    volR := vols.2
    srcCur := BitVec.ofNat 32 s.opAddr
    srcEnd := BitVec.ofNat 32 (s.opAddr + s.opLen)
    looping := fmtLoop fmt
    loopStart := if fmtLoop fmt then BitVec.ofNat 32 (s.opAddr + s.opLoopStart) else v.loopStart
    loopEnd := if fmtLoop fmt then BitVec.ofNat 32 (s.opAddr + s.opLoopEnd) else v.loopEnd
    pos := 0
    lcount := 0
    lpPrev := 0 }

/-- `init_voice` (40_voice_pool.md R139): set-up, decoder start, prefill. -/
def Voice.started (v : Voice) (fmt : BitVec 4) (s : State) : Voice :=
  let p := v.programmed fmt s
  (if fmtAdpcm fmt then p.adpcmStart s.cfg s.mem else p).refill s.cfg s.mem

/-- `GEN` advanced (40_voice_pool.md R131): 0xFFFFFF is followed by 1. -/
def nextGen (g : BitVec 24) : BitVec 24 := if g = 0xFFFFFF then 1 else g + 1

/-- Parts 2 to 4 of `PLAY` (40_voice_pool.md R136) in the slot `i` the arbiter gave, which holds `v`. -/
def State.playInSlot (s : State) (fmt : BitVec 4) (i : Nat) (v : Voice) : State :=
  let s1 := if v.active then s.finalize i v else s
  let g := nextGen s.gen
  State.complete { s1.setVoice i { v.started fmt s with gen := g } with gen := g } (mkHandle g i)

/-- `PLAY fmt` (40_voice_pool.md R136). -/
def execPlay (fmt : BitVec 4) (s : State) : Result :=
  if playArgsOk fmt s then
    match allocate s.voices s.opPrio with
    | none => .next (s.fail .noVoice)
    | some i =>
      match s.voices[i]? with
      | some v => .next (s.playInSlot fmt i v)
      | none   => .next (s.fail .noVoice)
  else .next (s.fail .badArg)

/-- `ALLOC` (40_voice_pool.md R135). -/
def execAlloc (s : State) : Result :=
  match allocate s.voices s.opPrio with
  | some i => .next (s.complete (BitVec.ofNat 32 i))
  | none   => .next (s.complete 0xFFFFFFFF)

/-- `STOP` (40_voice_pool.md R141). -/
def execStop (s : State) : Result :=
  match s.lookup s.opHandle with
  | some (i, v) => .next ((s.setVoice i { v with active := false }).complete 0)
  | none        => .next (s.fail .badHandle)

/-- `STOPALL` (40_voice_pool.md R142). -/
def execStopall (s : State) : Result :=
  .next (State.complete { s with voices := s.voices.map fun v => { v with active := false } } 0)

/-- A command that changes the active voice of a handle and leaves an inactive one alone (40_voice_pool.md R143 to
R145). -/
def State.onActiveVoice (s : State) (change : Voice → Voice) : Result :=
  match s.lookup s.opHandle with
  | some (i, v) => .next ((if v.active then s.setVoice i (change v) else s).complete 0)
  | none        => .next (s.fail .badHandle)

/-- `SETPAN` (40_voice_pool.md R143). -/
def execSetpan (s : State) : Result :=
  let vols := setvol s.opVol s.opLeft s.opRight
  s.onActiveVoice fun v => { v with volL := vols.1, volR := vols.2 }

/-- `SETPITCH` (40_voice_pool.md R144). -/
def execSetpitch (s : State) : Result :=
  s.onActiveVoice fun v => { v with pitch := s.x.get 3, step := calcstep s.cfg v.baseRate.toNat s.opPitch }

/-- `SETFREQ` (40_voice_pool.md R145). -/
def execSetfreq (s : State) : Result :=
  s.onActiveVoice fun v =>
    { v with baseRate := BitVec.ofNat 32 s.opRate, step := calcstep s.cfg s.opRate v.pitch.toInt }

/-- `ISPLAYING` (40_voice_pool.md R146). -/
def execIsplaying (s : State) : Result :=
  match s.lookup s.opHandle with
  | some (_, v) => .next (s.complete (if v.active then 1 else 0))
  | none        => .next (s.fail .badHandle)

/-- `COUNTPLAYING` (40_voice_pool.md R147). -/
def execCountplaying (s : State) : Result :=
  .next (s.complete (BitVec.ofNat 32 (s.voices.countP (·.active))))

/-- `HASFREE` (40_voice_pool.md R148). -/
def execHasfree (s : State) : Result :=
  .next (s.complete (if (allocate s.voices s.opPrio).isSome then 1 else 0))

/-- `SETLPF en, beta, alpha` (40_voice_pool.md R149). -/
def execSetlpf (en : Bool) (beta alpha : BitVec 9) (s : State) : Result :=
  if 256 < alpha.toNat ∨ 256 < beta.toNat ∨ 256 < alpha.toNat + beta.toNat then .next (s.fail .badArg)
  else .next (State.complete { s with alpha := alpha, beta := beta, lpfEn := en } 0)

/-- `SETMASTERVOL imm8` (40_voice_pool.md R150). -/
def execSetmastervol (imm8 : BitVec 8) (s : State) : Result := .next (State.complete { s with masterVol := imm8 } 0)

/-- `SETREVSTEREO imm1` (40_voice_pool.md R151). -/
def execSetrevstereo (imm1 : Bool) (s : State) : Result := .next (State.complete { s with revStereo := imm1 } 0)

/-- `SETMUSICGEN imm1` (40_voice_pool.md R152). -/
def execSetmusicgen (imm1 : Bool) (s : State) : Result := .next (State.complete { s with musicGen := imm1 } 0)

end Sys2Proof.Machine
end

