-- ==== Sys2Proof/Machine/Mixer.lean ====
section
/-! DEFINITION. The resampler and mixer, command `MIX` (42_mixer.md). The settings and parameters of the state at the start
of the pass are read throughout: nothing changes them during it (R202). -/

namespace Sys2Proof.Machine

/-- The silence fill (42_mixer.md R201): `n` 16-bit zero writes from address `a` up. -/
def silenceFill (m : Memory) (a : Nat) : Nat → Memory
  | 0 => m
  | n + 1 => silenceFill (m.write16 a 0) (a + 2) n

/-- One channel of `gains(i)` (42_mixer.md R202). -/
def gain (vol masterVol : BitVec 8) : Nat := vol.toNat * (masterVol.toNat + 1) / 256 / 2

/-- `gains(i)` (42_mixer.md R202): left and right, swapped by `CTRL.REVSTEREO`. -/
def State.gains (s : State) (v : Voice) : Nat × Nat :=
  if s.revStereo then (gain v.volR s.masterVol, gain v.volL s.masterVol)
  else (gain v.volL s.masterVol, gain v.volR s.masterVol)

/-- The integer part of the position, `v.pos >> 16` (00_scope.md R13). -/
def Voice.posIndex (v : Voice) : Nat := v.pos.toNat / 65536

/-- The sample read of 42_mixer.md R204. -/
def Voice.sample (v : Voice) : Int := (v.lbuf.getD v.posIndex 0).toInt

/-- The low-pass step of 42_mixer.md R207: `tdiv(BETA * lp_prev + ALPHA * s, 256)`. -/
def State.lowPass (s : State) (v : Voice) : Int :=
  ((s.beta.toNat : Int) * v.lpPrev.toInt + (s.alpha.toNat : Int) * v.sample).tdiv 256

/-- The sample that goes into the mix (42_mixer.md R204, R207). -/
def State.mixSample (s : State) (v : Voice) : Int := if s.lpfEn then s.lowPass v else v.sample

/-- Accumulate and clamp one channel (42_mixer.md R205). -/
def accumulate (m : Memory) (a : Nat) (c : Int) : Memory :=
  m.write16 a (BitVec.ofInt 16 (clamp ((m.read16 a).toInt + c) (-32768) 32767))

/-- MEM after one frame of one voice (42_mixer.md R205): left at `a`, right at `a + 2`. -/
def State.mixFrameMem (s : State) (g : Nat × Nat) (a : Nat) (v : Voice) (m : Memory) : Memory :=
  accumulate (accumulate m a (s.mixSample v * g.1)) (a + 2) (s.mixSample v * g.2)

/-- The voice after one frame, before exhaustion is checked (42_mixer.md R206, R207): the filter memory and the position
advance. -/
def State.mixFrameVoice (s : State) (v : Voice) : Voice :=
  { v with
    lpPrev := if s.lpfEn then BitVec.ofInt 8 (s.lowPass v) else v.lpPrev
    pos := BitVec.ofNat 32 (v.pos.toNat + v.step.toNat) }

/-- How a voice leaves a frame (42_mixer.md R208, R209). -/
inductive FrameEnd where
  | playing
  | ended
  | capped
  deriving DecidableEq, Repr

/-- The position moved back by the samples of the exhausted buffer (42_mixer.md R208). -/
def Voice.consumeBuffer (v : Voice) : Voice :=
  { v with pos := BitVec.ofNat 32 (v.pos.toNat - v.lcount.toNat * 65536) }

/-- The exhaustion loop of 42_mixer.md R208 with `left` refills of the cap still unused (R209): the voice, the refills left
and how it ended. `ended` is before `finalize`. -/
def exhaust (c : Config) (m : Memory) : Nat → Voice → Voice × Nat × FrameEnd
  | 0, v => if v.posIndex < v.lcount.toNat then (v, 0, .playing) else ({ v with pos := 0 }, 0, .capped)
  | left + 1, v =>
    if v.posIndex < v.lcount.toNat then (v, left + 1, .playing)
    else
      let v' := v.consumeBuffer.refill c m
      if v'.lcount = 0 then ({ v' with pos := 0 }, left, .ended) else exhaust c m left v'

/-- `n` frames of one voice from address `a` (42_mixer.md R200). -/
def State.mixFrames (s : State) (g : Nat × Nat) : Nat → Nat → Nat → Voice → Memory → Voice × Memory × FrameEnd
  | 0, _, _, v, m => (v, m, .playing)
  | n + 1, a, left, v, m =>
    let m' := s.mixFrameMem g a v m
    match exhaust s.cfg m' left (s.mixFrameVoice v) with
    | (v', left', .playing) => s.mixFrames g n (a + 4) left' v' m'
    | (v', _, e)            => (v', m', e)

/-- `REFILL_CAP` (00_scope.md R7). -/
def refillCap : Nat := 20

/-- What a pass changes besides the voice table. -/
structure MixAcc where
  mem   : Memory
  cbq   : CallbackQueue
  flags : BitVec 8
  done  : Nat
  deriving DecidableEq, Repr

/-- A voice takes part in the pass (42_mixer.md R203). -/
def Voice.takesPart (v : Voice) : Bool := v.active && v.lcount != 0

/-- One voice's share of the pass (42_mixer.md R200): all its frames, then the cap's flag or the finalization. -/
def State.mixVoice (s : State) (buf : Nat) (v : Voice) (acc : MixAcc) : Voice × MixAcc :=
  if v.takesPart then
    match s.mixFrames (s.gains v) s.cfg.nf buf refillCap v acc.mem with
    | (v', m, .playing) => (v', { acc with mem := m })
    | (v', m, .capped)  => (v', { acc with mem := m, flags := raiseFlag .refillCap acc.flags })
    | (v', m, .ended)   =>
      ({ v' with active := false },
       { mem := m, cbq := acc.cbq.enqueue v'.token, flags := enqueueFlags acc.cbq acc.flags, done := acc.done + 1 })
  else (v, acc)

/-- The voices in slot order (42_mixer.md R203). -/
def State.mixVoices (s : State) (buf : Nat) : List Voice → MixAcc → List Voice × MixAcc
  | [], acc => ([], acc)
  | v :: vs, acc =>
    let one := s.mixVoice buf v acc
    let rest := s.mixVoices buf vs one.2
    (one.1 :: rest.1, rest.2)

/-- The bed of the pass (42_mixer.md R201). -/
def State.mixBed (s : State) (buf : Nat) : Memory :=
  if s.musicGen then s.mem else silenceFill s.mem buf (2 * s.cfg.nf)

/-- The buffer check of `MIX` (42_mixer.md R200). -/
def State.mixArgsOk (s : State) : Bool := s.opAddr % 4 == 0 && s.opAddr + 4 * s.cfg.nf ≤ 2 ^ 32

/-- `MIX` (42_mixer.md R200). -/
def execMix (s : State) : Result :=
  if s.mixArgsOk then
    let pass := s.mixVoices s.opAddr s.voices ⟨s.mixBed s.opAddr, s.cbq, s.errflags, 0⟩
    .next (State.complete
      { s with voices := pass.1, mem := pass.2.mem, cbq := pass.2.cbq, errflags := pass.2.flags }
      (BitVec.ofNat 32 pass.2.done))
  else .next (s.fail .badArg)

end Sys2Proof.Machine
end

