-- ==== Sys2Proof/Machine/OplAllocator.lean ====
section
/-! DEFINITION. The OPL voice allocator and the MIDI channel events (44_opl_allocator.md). -/

namespace Sys2Proof.Machine

/-- The first OPL voice, in voice order, that satisfies `p` (00_scope.md R16). -/
def State.firstSlot (s : State) (p : OplVoice → Bool) : Option (Fin 9) := oplSlots.find? fun k => p (s.ovoices.get k)

/-- `FindVoice(ch, key)` (44_opl_allocator.md R251). -/
def State.findVoice (s : State) (ch : BitVec 4) (key : BitVec 7) : Option (Fin 9) :=
  s.firstSlot fun o => o.active && o.channel == ch && o.key == key

/-- `AllocateVoice(ch, tim)` (44_opl_allocator.md R252): the five steps in order. -/
def State.allocateVoice (s : State) (ch : BitVec 4) (tim : BitVec 8) : Fin 9 :=
  ((s.firstSlot fun o => !o.active && o.timbre == some tim) <|>
   (s.firstSlot fun o => !o.active) <|>
   (s.firstSlot fun o => o.channel == ch) <|>
   (s.firstSlot fun o => o.channel == 9)).getD 0

/-- `note_timbre(ch, key)` (44_opl_allocator.md R259). -/
def State.noteTimbre (s : State) (ch : BitVec 4) (key : BitVec 7) : BitVec 8 :=
  if ch = 9 ∧ s.cfg.percBanked then 1#1 ++ key else (s.chan ch).timbre

/-- A voice number as a result word. -/
def slotWord (k : Fin 9) : Word := BitVec.ofNat 32 k

/-- `NOTEOFF(ch, key)` (44_opl_allocator.md R258). -/
def State.noteOff (s : State) (ch : BitVec 4) (key : BitVec 7) : State :=
  match s.findVoice ch key with
  | none   => s.complete 0xFFFFFFFF
  | some k => (s.release k).complete (slotWord k)

/-- The voice a `NOTEON` uses (44_opl_allocator.md R257): the one already sounding the note, else an allocated one. -/
def State.noteSlot (s : State) (ch : BitVec 4) (key : BitVec 7) : Fin 9 :=
  (s.findVoice ch key).getD (s.allocateVoice ch (s.noteTimbre ch key))

/-- The part of `NOTEON` (44_opl_allocator.md R257) after the voice is chosen: release, claim, timbre if needed, volume,
key-on, pitch, in that order. -/
def State.startNote (s : State) (k : Fin 9) (ch : BitVec 4) (key vel : BitVec 7) (tim : BitVec 8) : State :=
  let s1 := if (s.ovoices.get k).active then s.keyOff k else s
  let s2 := s1.setOvoice k { s1.ovoices.get k with active := true, channel := ch, key := key, velocity := vel }
  let s3 := if (s2.ovoices.get k).timbre = some tim then s2 else s2.setVoiceTimbre k tim
  let s4 := s3.setVoiceVolume k
  let s5 := s4.setOvoice k { s4.ovoices.get k with keyon := true }
  s5.setVoicePitch k

/-- `NOTEON ch, key, vel` (44_opl_allocator.md R257): velocity 0 is a Note Off. -/
def execNoteon (ch : BitVec 4) (d1 d2 : BitVec 7) (s : State) : Result :=
  if d2 = 0 then .next (s.noteOff ch d1)
  else if s.tbValid then
    let k := s.noteSlot ch d1
    .next ((s.startNote k ch d1 d2 (s.noteTimbre ch d1)).complete (slotWord k))
  else .next (s.fail .noTimbre)

/-- `NOTEOFF ch, key, _` (44_opl_allocator.md R258): the release velocity is ignored. -/
def execNoteoff (ch : BitVec 4) (d1 _d2 : BitVec 7) (s : State) : Result := .next (s.noteOff ch d1)

/-- `OVFIND qch, key` (44_opl_allocator.md R253). -/
def execOvfind (qch : BitVec 4) (key : BitVec 7) (s : State) : Result :=
  match s.findVoice qch key with
  | some k => .next (s.complete (slotWord k))
  | none   => .next (s.complete 0xFFFFFFFF)

/-- `OVALLOC qch, tim` (44_opl_allocator.md R254). -/
def execOvalloc (qch : BitVec 4) (tim : BitVec 8) (s : State) : Result :=
  .next (s.complete (slotWord (s.allocateVoice qch tim)))

/-- `chan[ch] <- c`. -/
def State.setChan (s : State) (ch : BitVec 4) (c : Channel) : State := { s with chans := s.chans.set ch.toFin c }

/-- Do `f` for each active OPL voice of channel `ch`, in voice order (44_opl_allocator.md R260, R264). -/
def State.forChannelSlots (s : State) (ch : BitVec 4) (f : State → Fin 9 → State) : State :=
  s.forOplSlots fun t k => if (t.ovoices.get k).active && (t.ovoices.get k).channel == ch then f t k else t

/-- `CONTROLLER ch, num, val` (44_opl_allocator.md R260 to R262): volume, pan, all notes off; every other number is
ignored. -/
def execController (ch : BitVec 4) (d1 d2 : BitVec 7) (s : State) : Result :=
  if d1 = 7 then
    .next (((s.setChan ch { s.chan ch with volume := d2 }).forChannelSlots ch State.setVoiceVolume).complete 0)
  else if d1 = 10 then .next ((s.setChan ch { s.chan ch with pan := d2 }).complete 0)
  else if d1 = 123 then .next ((s.forChannelSlots ch State.release).complete 0)
  else .next (s.complete 0)

/-- `PROGCHANGE ch, prog` (44_opl_allocator.md R263). -/
def execProgchange (ch : BitVec 4) (d1 : BitVec 7) (s : State) : Result :=
  .next ((s.setChan ch { s.chan ch with timbre := 0#1 ++ d1 }).complete 0)

/-- `PITCHBEND ch, lsb, msb` (44_opl_allocator.md R264). -/
def execPitchbend (ch : BitVec 4) (d1 d2 : BitVec 7) (s : State) : Result :=
  let b := s.cfg.bendMap (d2 ++ d1)
  .next (((s.setChan ch { s.chan ch with bend := d2 ++ d1, keyOffset := b.keyOffset, detune := b.detune
    }).forChannelSlots ch State.setVoicePitch).complete 0)

/-- `KEYPRESSURE` (44_opl_allocator.md R265): a hint. -/
def execKeypressure (_ch : BitVec 4) (_d1 _d2 : BitVec 7) (s : State) : Result := .next (s.complete 0)

/-- `CHANPRESSURE` (44_opl_allocator.md R265): a hint. -/
def execChanpressure (_ch : BitVec 4) (_d1 : BitVec 7) (s : State) : Result := .next (s.complete 0)

/-- `OPLRESET` (44_opl_allocator.md R266): nine key-off writes, voices and channels at their reset values. -/
def execOplreset (s : State) : Result :=
  let t := s.forOplSlots fun t k => (t.oplWrite (voiceReg 0xB0 k) 0).setOvoice k OplVoice.reset
  .next (State.complete { t with chans := Vector.replicate 16 (Channel.reset s.cfg) } 0)

/-- `OPLALLOFF` (44_opl_allocator.md R267). -/
def execOplalloff (s : State) : Result :=
  .next ((s.forActiveSlots State.release).complete
    (BitVec.ofNat 32 (oplSlots.countP fun k => (s.ovoices.get k).active)))

end Sys2Proof.Machine
end

