-- ==== Sys2Proof/Machine/System.lean ====
section
/-! DEFINITION. The system commands (46_system.md). -/

namespace Sys2Proof.Machine

/-- `NOP` (46_system.md R330). -/
def execNop (s : State) : Result := .next (s.complete 0)

/-- `RESET` (46_system.md R331, 10_state.md R50). -/
def execReset (s : State) : Result := .next (s.cleared.complete 0)

/-- `CLRERR imm8` (46_system.md R332): clears the masked flags and returns the flags as they were. -/
def execClrerr (imm8 : BitVec 8) (s : State) : Result :=
  .next (State.complete { s with errflags := s.errflags &&& ~~~imm8 } (0#24 ++ s.errflags))

end Sys2Proof.Machine
end

