-- ==== Sys2Proof/Machine/Dispatch.lean ====
section
/-! DEFINITION. One arm per row of the opcode table (30_encoding.md R111). -/

namespace Sys2Proof.Machine

def exec (i : Instr) (s : State) : Host.Outcome State Fault Refusal :=
  match i with
  | .nop => Sys2Proof.Machine.execNop s
  | .reset => Sys2Proof.Machine.execReset s
  | .clrerr imm8 => Sys2Proof.Machine.execClrerr imm8 s
  | .alloc => Sys2Proof.Machine.execAlloc s
  | .play fmt => Sys2Proof.Machine.execPlay fmt s
  | .stop => Sys2Proof.Machine.execStop s
  | .stopall => Sys2Proof.Machine.execStopall s
  | .setpan => Sys2Proof.Machine.execSetpan s
  | .setpitch => Sys2Proof.Machine.execSetpitch s
  | .setfreq => Sys2Proof.Machine.execSetfreq s
  | .isplaying => Sys2Proof.Machine.execIsplaying s
  | .countplaying => Sys2Proof.Machine.execCountplaying s
  | .hasfree => Sys2Proof.Machine.execHasfree s
  | .setmastervol imm8 => Sys2Proof.Machine.execSetmastervol imm8 s
  | .setrevstereo imm1 => Sys2Proof.Machine.execSetrevstereo imm1 s
  | .setlpf en beta alpha => Sys2Proof.Machine.execSetlpf en beta alpha s
  | .setmusicgen imm1 => Sys2Proof.Machine.execSetmusicgen imm1 s
  | .mix => Sys2Proof.Machine.execMix s
  | .drain => Sys2Proof.Machine.execDrain s
  | .cback => Sys2Proof.Machine.execCback s
  | .tbload => Sys2Proof.Machine.execTbload s
  | .oplreset => Sys2Proof.Machine.execOplreset s
  | .oplalloff => Sys2Proof.Machine.execOplalloff s
  | .setmusicvol imm8 => Sys2Proof.Machine.execSetmusicvol imm8 s
  | .ovfind qch key => Sys2Proof.Machine.execOvfind qch key s
  | .ovalloc qch tim => Sys2Proof.Machine.execOvalloc qch tim s
  | .ovtimbre vo tim => Sys2Proof.Machine.execOvtimbre vo tim s
  | .ovvolume vo => Sys2Proof.Machine.execOvvolume vo s
  | .ovpitch vo => Sys2Proof.Machine.execOvpitch vo s
  | .noteoff ch d1 d2 => Sys2Proof.Machine.execNoteoff ch d1 d2 s
  | .noteon ch d1 d2 => Sys2Proof.Machine.execNoteon ch d1 d2 s
  | .keypressure ch d1 d2 => Sys2Proof.Machine.execKeypressure ch d1 d2 s
  | .controller ch d1 d2 => Sys2Proof.Machine.execController ch d1 d2 s
  | .progchange ch d1 => Sys2Proof.Machine.execProgchange ch d1 s
  | .chanpressure ch d1 => Sys2Proof.Machine.execChanpressure ch d1 s
  | .pitchbend ch d1 d2 => Sys2Proof.Machine.execPitchbend ch d1 d2 s

end Sys2Proof.Machine
end

