-- ==== Sys2Proof/Machine/HostPort.lean ====
section
/-! DEFINITION. The host's accesses: the register window (10_state.md R24, 20_memory.md R71), MEM, hardware reset, and the
execution of a command at a write of `CMD` (30_encoding.md R112). -/

namespace Sys2Proof.Machine

/-- `STATUS.BUSY <- 0` at the end of a command (30_encoding.md R112). -/
def clearBusy : Result → Result
  | .next t    => .next { t with busy := false }
  | .fault r   => .fault r
  | .refused r => .refused r

/-- One command from the write of its word to completion (30_encoding.md R112): a word of no row fails with `E_BADCMD`
(R113). -/
def State.runCommand (s : State) (w : Word) : Result :=
  match decode w with
  | .ok i    => clearBusy (exec i { s with busy := true })
  | .error _ => clearBusy (.next (State.fail { s with busy := true } .badCmd))

/-- A write of `CMD` (10_state.md R25): while `BUSY = 1` it is dropped and sets `F_OVERRUN` (log 9). -/
def State.writeCmd (s : State) (w : Word) : Result :=
  if s.busy then .next (s.flag .overrun) else s.runCommand w

/-- A byte offset of REG that a word access may use (20_memory.md R71). -/
def regAligned (off : BitVec 8) : Bool := off.toNat % 4 == 0

/-- A word write to REG (10_state.md R24, R34, 60_exceptions.md R381): it matters at `CMD` and at `x[i]` only. What is no
aligned word is refused (log 10), and so is `x[i]` while `BUSY = 1` (log 19). -/
def State.regWrite (s : State) (off : BitVec 8) (data : Word) : Result :=
  if regAligned off then
    match regOperand off with
    | some i => if s.busy then .refused .operandAccessWhileBusy else .next { s with x := s.x.set i data }
    | none   => if off = 0 then s.writeCmd data else .next s
  else .refused .regAccessNotAlignedWord

/-- What a read of an R register returns while `BUSY = 1` (93_implementation_defined.md U8): a free value, but for `BUSY`
itself (log 9). -/
def busyRead (event : Nat) (off : BitVec 8) : Word :=
  let w := Config.freeBits 32 event off.toNat
  if off = 0x04 then w ||| 1 else w

/-- A word read of REG (10_state.md R24, 20_memory.md R71): no register changes. Refusals as in a write (logs 10, 19). -/
def State.regRead (s : State) (off : BitVec 8) : Result :=
  if regAligned off then
    if s.busy && (regOperand off).isSome then .refused .operandAccessWhileBusy
    else if s.busy && regIsMirror off then
      .next { s with hostData := busyRead s.freeCtr off, freeCtr := s.freeCtr + 1 }
    else .next { s with hostData := s.readReg off }
  else .refused .regAccessNotAlignedWord

/-- One host access (10_state.md R20 (a)). The accesses of MEM are carried out alike with `BUSY` set and clear: what one of
them does to a command in progress, which 70_reset_and_hazards.md R410 forbids, is nowhere stated (DESIGN CHOICE, log 24). -/
def HostAction.apply : HostAction → State → Result
  | .regWrite off data, s  => s.regWrite off data
  | .regRead off, s        => s.regRead off
  | .regNarrow _ _, _      => .refused .regAccessNotAlignedWord
  | .memWrite addr data, s => .next { s with mem := s.mem.write addr.toNat data }
  | .memRead addr, s       => .next { s with hostData := 0#24 ++ s.mem.read addr.toNat }
  | .hwReset, s            => .next s.hardwareReset

/-- The next host access happens, if there is one. Without one MDAE is idle and holds its state (60_exceptions.md R385,
70_reset_and_hazards.md R400). Parameters outside their ranges are refused (U15, log 11). -/
def State.advanceHost (s : State) : Result :=
  if s.cfg.wf then
    match s.hostq with
    | []        => .next s
    | a :: rest => a.apply { s with hostq := rest }
  else .refused .parametersOutOfRange

/-- The host is about to write the low `nbits` bits of `w` to `CMD`, ahead of everything it still plans, and MDAE is not
busy. -/
def State.placeCommand (s : State) (nbits w : Nat) : State :=
  { s with hostq := .regWrite 0x00 (BitVec.ofNat 32 (w % 2 ^ nbits)) :: s.hostq, busy := false }

end Sys2Proof.Machine
end

