-- ==== Sys2Proof/Machine/Step.lean ====
section
/-! DEFINITION. One step of the machine: the host's next access (10_state.md R20, R23: there is no fetch, a command is what
the host writes to `CMD`). -/

namespace Sys2Proof.Machine

/-- One step. -/
def step (s : State) : Host.Outcome State Fault Refusal := s.advanceHost

/-- The state in which the very next step runs the command word `w` (log 2: a program is the host's list of accesses). -/
def State.withFetchWord (s : State) (nbits w : Nat) : State := s.placeCommand nbits w

end Sys2Proof.Machine
end

