-- ==== Sys2Proof/Machine/HostSequences.lean ====
section
/-! DEFINITION. The host's notation (30_encoding.md R116) and the pseudo-instructions (R117) that are a fixed sequence of
host accesses. What R117 calls host only (the callback function, the parser, the sequencer) has none. -/

namespace Sys2Proof.Machine

/-- `LDX i, value` (30_encoding.md R116). -/
def ldx (i : Fin 16) (value : Word) : HostAction := .regWrite (BitVec.ofNat 8 (0x40 + 4 * i.val)) value

/-- A command line of the notation (30_encoding.md R116): the write of its word to `CMD`. -/
def cmd (i : Instr) : HostAction := .regWrite 0x00 (encode i)

/-- `RDR RES` (30_encoding.md R116). -/
def rdrRes : HostAction := .regRead 0x08

/-- The operands of `PlaySample` (30_encoding.md R117), container already parsed. -/
structure PlayRequest where
  ptr       : Word
  len       : Word
  rate      : Word
  pitch     : Word
  volume    : Word
  left      : Word
  right     : Word
  priority  : Word
  token     : Word
  loopStart : Word
  loopEnd   : Word
  fmt       : BitVec 4
  deriving DecidableEq, Repr

/-- `PlaySample(...) -> handle`. -/
def playSample (r : PlayRequest) : List HostAction :=
  [ldx 0 r.ptr, ldx 1 r.len, ldx 2 r.rate, ldx 3 r.pitch, ldx 4 r.volume, ldx 5 r.left, ldx 6 r.right,
   ldx 7 r.priority, ldx 8 r.token, ldx 9 r.loopStart, ldx 10 r.loopEnd, cmd (.play r.fmt), rdrRes]

/-- `StopSample(handle)`. -/
def stopSample (handle : Word) : List HostAction := [ldx 0 handle, cmd .stop]

/-- `StopAll()`. -/
def stopAll : List HostAction := [cmd .stopall]

/-- `SetPan(handle, vol, left, right)`. -/
def setPan (handle vol left right : Word) : List HostAction :=
  [ldx 0 handle, ldx 4 vol, ldx 5 left, ldx 6 right, cmd .setpan]

/-- `SetPitch(handle, pitch)`. -/
def setPitch (handle pitch : Word) : List HostAction := [ldx 0 handle, ldx 3 pitch, cmd .setpitch]

/-- `SetFrequency(handle, rate)`. -/
def setFrequency (handle rate : Word) : List HostAction := [ldx 0 handle, ldx 2 rate, cmd .setfreq]

/-- `IsPlaying(handle) -> bool`. -/
def isPlaying (handle : Word) : List HostAction := [ldx 0 handle, cmd .isplaying, rdrRes]

/-- `CountPlaying() -> int`. -/
def countPlaying : List HostAction := [cmd .countplaying, rdrRes]

/-- `HasFreeVoice(priority) -> bool`. -/
def hasFreeVoice (priority : Word) : List HostAction := [ldx 7 priority, cmd .hasfree, rdrRes]

/-- `SetMasterVolume(0..255)`. -/
def setMasterVolume (v : BitVec 8) : List HostAction := [cmd (.setmastervol v)]

/-- `SetReverseStereo(bool)`. -/
def setReverseStereo (b : Bool) : List HostAction := [cmd (.setrevstereo b)]

/-- The MDAE part of `PlayMIDI(file, loop)` once the file is parsed. -/
def playMidiStart : List HostAction := [cmd .oplreset, cmd (.setmusicgen true)]

/-- `StopMusic()`. -/
def stopMusic : List HostAction := [cmd .oplalloff, cmd (.setmusicgen false)]

/-- `SetMusicVolume(0..255)`. -/
def setMusicVolume (v : BitVec 8) : List HostAction := [cmd (.setmusicvol v)]

/-- `RegisterTimbreBank(blob)`. -/
def registerTimbreBank (ptr : Word) : List HostAction := [ldx 0 ptr, cmd .tbload]

/-- `SERVICE buf` up to and including `DRAIN`. The `CBACK` loop that follows depends on what the host reads. -/
def serviceBuffer (buf : Word) : List HostAction := [ldx 0 buf, cmd .mix, cmd .drain]

/-- One turn of the `CBACK` loop of `SERVICE`. -/
def acknowledgeToken : List HostAction := [.regRead 0x24, cmd .cback]

/-- MIDI all-notes-off. -/
def allNotesOff (ch : BitVec 4) : List HostAction := [cmd (.controller ch 123 0)]

end Sys2Proof.Machine
end

