-- ==== Sys2Proof/Safety.lean ====
section
/-! DEFINITION. What a good state is, in the terms the statements use: the invariants the spec states (10_state.md R36, R40,
R41; 40_voice_pool.md R149; 44_opl_allocator.md R250) with the data shapes the model adds (list lengths, the memory's form).
Then the vocabulary of the statements: the spec's conditions written in its own words, apart from the functions that decide
them. -/

namespace Sys2Proof.Machine

/-- 10_state.md R36 (I2): an active voice has buffered samples, and its position is inside them. -/
abbrev Voice.BufferOk (v : Voice) : Prop :=
  v.active = true → 1 ≤ v.lcount.toNat ∧ v.lcount.toNat ≤ 256 ∧ v.posIndex < v.lcount.toNat

/-- The address one past the last byte that a 32-bit end register names: no source ends at address 0, and the end `2^32` is
held as 0 (log 7). -/
abbrev endAddress (e : BitVec 32) : Nat := if e = 0 then 2 ^ 32 else e.toNat

/-- 10_state.md R36 (I3), with the bound of R82 and, for a loop, the unit that 40_voice_pool.md R136 asks it to hold. -/
abbrev Voice.SourceOk (v : Voice) : Prop :=
  v.active = true →
    v.srcCur.toNat ≤ endAddress v.srcEnd ∧
    (v.looping = true →
      v.loopStart.toNat < endAddress v.loopEnd ∧ v.unit ≤ (v.loopEnd - v.loopStart).toNat ∧
      endAddress v.loopEnd ≤ endAddress v.srcEnd ∧ v.srcCur.toNat ≤ endAddress v.loopEnd)

/-- 10_state.md R35 (ranges of `step` and `base_rate`) and R36 (I4) for an active voice. -/
abbrev Voice.RatesOk (v : Voice) : Prop :=
  v.active = true →
    66 ≤ v.step.toNat ∧ v.step.toNat ≤ 3145728 ∧ 1 ≤ v.baseRate.toNat ∧ v.gen ≠ 0

/-- 10_state.md R40: the tail follows the head by the count, which is at most 32. -/
abbrev CallbackQueue.Ok (q : CallbackQueue) : Prop :=
  q.count.toNat ≤ 32 ∧ q.tail.toNat = (q.head.toNat + q.count.toNat) % 32

/-- 10_state.md R41 and 43_callback_queue.md R235 (c). -/
abbrev State.SessionOk (s : State) : Prop :=
  s.cbValid = s.draining ∧ s.drainLeft.toNat ≤ 8 ∧ (s.draining = false → s.drainLeft = 0)

/-- 44_opl_allocator.md R250: key-on follows active, and an active voice is programmed from a loaded bank. -/
abbrev State.OplOk (s : State) : Prop :=
  ∀ k : Fin 9, (s.ovoices.get k).keyon = (s.ovoices.get k).active ∧
    ((s.ovoices.get k).active = true → (s.ovoices.get k).timbre.isSome = true ∧ s.tbValid = true)

/-- A good state between commands. -/
structure State.Inv (s : State) : Prop where
  parameters : s.cfg.wf = true
  idle       : s.busy = false
  memory     : s.mem.wf
  slots      : s.voices.length = s.cfg.nv
  lbufs      : ∀ v ∈ s.voices, v.lbuf.length = 256
  buffers    : ∀ v ∈ s.voices, v.BufferOk
  sources    : ∀ v ∈ s.voices, v.SourceOk
  rates      : ∀ v ∈ s.voices, v.RatesOk
  queue      : s.cbq.Ok
  session    : s.SessionOk
  filter     : s.alpha.toNat + s.beta.toNat ≤ 256
  bank       : s.tb.length = 3328
  opl        : s.OplOk
  errorCode  : s.err.toNat ≤ 5

/-- 10_state.md R36 (I4) while `GEN` has not wrapped: no slot's generation is ahead of `GEN`, and no two slots hold the same
non-zero one. -/
abbrev State.GensDistinct (s : State) : Prop :=
  (∀ v ∈ s.voices, v.gen.toNat ≤ s.gen.toNat) ∧
    s.voices.Pairwise fun v w => v.gen = w.gen → v.gen = 0

/-- The access is one of REG that is not an aligned 32-bit word (10_state.md R34). -/
def HostAction.Misaligned : HostAction → Prop
  | .regWrite off _ | .regRead off => off.toNat % 4 ≠ 0
  | .regNarrow _ _                 => True
  | .memWrite _ _ | .memRead _ | .hwReset => False

/-- A safe step: it refuses the next access if that is one of REG that is not an aligned word
(93_implementation_defined.md U7), and answers a next state otherwise. -/
def safeStep (s : State) : Prop :=
  ((∃ a ∈ s.hostq.head?, a.Misaligned) → step s = .refused .regAccessNotAlignedWord) ∧
  ((∀ a ∈ s.hostq.head?, ¬a.Misaligned) → ∃ t, step s = .next t)

/-! ### Reset -/

/-- Every value 10_state.md R49 gives, for the parameters in the state, but for `x[0..15]` and the logs. What R49 calls
unspecified is left open. -/
structure State.HasResetValues (s : State) : Prop where
  res      : s.res = 0
  status   : s.busy = false ∧ s.draining = false ∧ s.cbValid = false ∧ s.tbValid = false ∧ s.err = 0
  errflags : s.errflags = 0
  ctrl     : s.revStereo = false ∧ s.lpfEn = false ∧ s.musicGen = false
  volumes  : s.masterVol = 255 ∧ s.musicVol = 255
  lpf      : s.alpha = 256 ∧ s.beta = 0
  gen      : s.gen = 0
  slots    : s.voices.length = s.cfg.nv
  voices   : ∀ v ∈ s.voices,
    v.active = false ∧ v.gen = 0 ∧ v.lcount = 0 ∧ v.pos = 0 ∧ v.step = 0 ∧ v.lpPrev = 0
  queue    : s.cbq.head = 0 ∧ s.cbq.tail = 0 ∧ s.cbq.count = 0
  session  : s.drainLeft = 0 ∧ s.cbToken = 0
  ovoices  : ∀ k : Fin 9, s.ovoices.get k = {
    active := false, channel := 0, key := 0, velocity := 0, timbre := none, keyon := false, pitch := 0
    lvlMod := 0, lvlCar := 0, kslMod := 0, kslCar := 0 }
  chans    : ∀ n : Fin 16, s.chans.get n = {
    timbre := 0, volume := s.cfg.chvolReset, bend := 8192, pan := 64, keyOffset := BitVec.ofInt 8 (-12), detune := 0 }

/-! ### The voice pool -/

/-- The handle in `x[0]` is valid and names slot `i`, which holds `v` (40_voice_pool.md R131, R132). -/
abbrev State.HandleAt (s : State) (i : Nat) (v : Voice) : Prop :=
  s.voices[i]? = some v ∧ i < s.cfg.nv ∧ i < 256 ∧ v.gen ≠ 0 ∧ s.x.get 0 = v.gen ++ BitVec.ofNat 8 i

/-- Slot `i`, which holds `v`, is the one a request of priority `prio` gets (40_voice_pool.md R133): the first inactive
slot, or with none the first of lowest priority, if that is strictly below the request's. -/
abbrev State.ArbiterGives (s : State) (prio : Int) (i : Nat) (v : Voice) : Prop :=
  s.voices[i]? = some v ∧
    ((v.active = false ∧ ∀ (j : Nat) (w : Voice), j < i → s.voices[j]? = some w → w.active = true) ∨
     ((∀ w ∈ s.voices, w.active = true) ∧ v.prio.toInt < prio ∧ (∀ w ∈ s.voices, v.prio.toInt ≤ w.prio.toInt) ∧
      ∀ (j : Nat) (w : Voice), j < i → s.voices[j]? = some w → v.prio.toInt < w.prio.toInt))

/-- No slot is inactive and none has a priority below `prio` (40_voice_pool.md R133). -/
abbrev State.PoolFull (s : State) (prio : Int) : Prop := ∀ w ∈ s.voices, w.active = true ∧ prio ≤ w.prio.toInt

/-- The four argument checks of `PLAY` (40_voice_pool.md R136) find something wrong. `fmt` is `F16`, `SGN`, `ADP`, `LOOP` in
bits 0 to 3. -/
abbrev State.PlayRejects (s : State) (fmt : BitVec 4) : Prop :=
  let ptr := (s.x.get 0).toNat
  let len := (s.x.get 1).toNat
  let ls := (s.x.get 9).toNat
  let le := (s.x.get 10).toNat
  let hdr := if fmt.getLsbD 2 = true ∧ s.cfg.variant = .a then 1 else 0
  let unit := if fmt.getLsbD 0 = true then 2 else 1
  (fmt.getLsbD 2 = true ∧ (fmt.getLsbD 0 = true ∨ fmt.getLsbD 1 = true)) ∨ 2 ^ 32 < ptr + len ∨ len < hdr + unit ∨
    (fmt.getLsbD 3 = true ∧ ¬(hdr ≤ ls ∧ ls + unit ≤ le ∧ le ≤ len))

/-- Samples still to come from the source of a voice (41_refill_adpcm.md R183). -/
def Voice.samplesLeft (v : Voice) : Nat := if v.fadpcm then 2 * v.unitsLeft else v.unitsLeft

/-- The tokens in the queue, oldest first (10_state.md R40). -/
def CallbackQueue.tokens (q : CallbackQueue) : List Word :=
  (List.range q.count.toNat).map fun k => q.ent.get (Fin.ofNat 32 (q.head.toNat + k))

/-! ### The mix -/

/-- What successive samples `xs` of a voice become before the gain, from the filter memory `prev` on: themselves, or with
the filter on its outputs (42_mixer.md R204, R207). -/
def State.heard (s : State) : Int → List Int → List Int
  | _, [] => []
  | prev, x :: xs =>
    let y := if s.lpfEn then ((s.beta.toNat : Int) * prev + s.alpha.toNat * x).tdiv 256 else x
    y :: s.heard y xs

/-- The filter memory of a voice that had `prev` in it after the outputs `ys` (42_mixer.md R207). -/
def State.filterMemory (s : State) (prev : BitVec 8) (ys : List Int) : BitVec 8 :=
  if s.lpfEn then BitVec.ofInt 8 (ys.getLastD prev.toInt) else prev

/-- Contributions added to one word in order, with the clamp after each (42_mixer.md R205). -/
def clampedSum (bed : Int) (cs : List Int) : Int := cs.foldl (fun sum c => clamp (sum + c) (-32768) 32767) bed

/-- MEM `m` is the MEM of `s` with the sink buffer mixed: in every frame the bed (42_mixer.md R201), to which each of the
voices adds its output of that frame, if it has one, times its gains (R202, R205), in the order of the list (R203); and
nothing outside the buffer has changed (R210). -/
def State.SinkHolds (s : State) (m : Memory) (outputs : List (Voice × List Int)) : Prop :=
  let buf := (s.x.get 0).toNat
  let gain (vol : BitVec 8) : Int := (vol.toNat * (s.masterVol.toNat + 1) / 2 ^ 8 / 2 : Nat)
  let left (v : Voice) := if s.revStereo then gain v.volR else gain v.volL
  let right (v : Voice) := if s.revStereo then gain v.volL else gain v.volR
  let bed (a : Nat) : Int := if s.musicGen then (s.mem.read16 a).toInt else 0
  let added (f : Nat) (g : Voice → Int) : List Int := outputs.filterMap fun o => o.2[f]?.map fun y => y * g o.1
  m.wf ∧
  (∀ f, f < s.cfg.nf →
    (m.read16 (buf + 4 * f)).toInt = clampedSum (bed (buf + 4 * f)) (added f left) ∧
    (m.read16 (buf + 4 * f + 2)).toInt = clampedSum (bed (buf + 4 * f + 2)) (added f right)) ∧
  ∀ a, a < buf ∨ buf + 4 * s.cfg.nf ≤ a → m.read a = s.mem.read a

/-- The voice after `k` refills in a row (42_mixer.md R208), the position aside. -/
def Voice.refilled (v : Voice) (c : Config) (m : Memory) : Nat → Voice
  | 0     => v
  | k + 1 => (v.refilled c m k).refill c m

/-- The samples of the buffers before the `k`-th refill and of that refill, in one row. -/
def Voice.stream (v : Voice) (c : Config) (m : Memory) (k : Nat) : List (BitVec 8) :=
  (List.range (k + 1)).flatMap fun i => (v.refilled c m i).lbuf.take (v.refilled c m i).lcount.toNat

/-- How many samples the first `k` buffers hold. -/
def Voice.samplesBefore (v : Voice) (c : Config) (m : Memory) (k : Nat) : Nat :=
  ((List.range k).map fun i => (v.refilled c m i).lcount.toNat).sum

/-- The position of frame `f`, counted from the first sample of the first buffer (42_mixer.md R206, R208: refills keep it). -/
def Voice.positionAt (v : Voice) (f : Nat) : Nat := v.pos.toNat + f * v.step.toNat

/-! ### The OPL side -/

/-- `k` is the first OPL voice, in voice order, with `p` (00_scope.md R16). -/
abbrev State.FirstOpl (s : State) (p : OplVoice → Prop) (k : Fin 9) : Prop :=
  p (s.ovoices.get k) ∧ ∀ j : Fin 9, j < k → ¬p (s.ovoices.get j)

/-- No OPL voice has `p`. -/
abbrev State.NoOpl (s : State) (p : OplVoice → Prop) : Prop := ∀ j : Fin 9, ¬p (s.ovoices.get j)

/-- An OPL voice sounds the note `key` of channel `ch` (44_opl_allocator.md R251). -/
abbrev OplVoice.Sounds (ch : BitVec 4) (key : BitVec 7) (o : OplVoice) : Prop :=
  o.active = true ∧ o.channel = ch ∧ o.key = key

/-- `k` is the voice 44_opl_allocator.md R252 chooses for a new note on channel `ch` with timbre `tim`: its five steps. -/
abbrev State.OplChoice (s : State) (ch : BitVec 4) (tim : BitVec 8) (k : Fin 9) : Prop :=
  let idleWith (o : OplVoice) := o.active = false ∧ o.timbre = some tim
  let idle (o : OplVoice) := o.active = false
  let same (o : OplVoice) := o.channel = ch
  let perc (o : OplVoice) := o.channel = 9
  s.FirstOpl idleWith k ∨
  (s.NoOpl idleWith ∧ s.FirstOpl idle k) ∨
  (s.NoOpl idle ∧ s.FirstOpl same k) ∨
  (s.NoOpl idle ∧ s.NoOpl same ∧ s.FirstOpl perc k) ∨
  (s.NoOpl idle ∧ s.NoOpl same ∧ s.NoOpl perc ∧ k = 0)

/-- The pair a `KeyOff(k)` writes (44_opl_allocator.md R255). -/
def keyOffPair (k : Fin 9) (o : OplVoice) : Byte × Byte :=
  (BitVec.ofNat 8 (0xB0 + k.val), BitVec.ofNat 8 (o.pitch.toNat / 2 ^ 8 % 2 ^ 5))

/-- The pairs a `SetVoicePitch(k)` that computes `p` writes (45_fm_register_mapper.md R300). -/
def pitchPairs (k : Fin 9) (keyon : Bool) (p : BitVec 13) : List (Byte × Byte) :=
  [(BitVec.ofNat 8 (0xA0 + k.val), BitVec.ofNat 8 ((p.toNat + 2 ^ 13 * keyon.toNat) % 2 ^ 8)),
   (BitVec.ofNat 8 (0xB0 + k.val), BitVec.ofNat 8 ((p.toNat + 2 ^ 13 * keyon.toNat) / 2 ^ 8))]

/-! ### Which command fails when -/

/-- The command fails with this error in this state (60_exceptions.md R371, R374). -/
def State.FailsWith (s : State) : Instr → Failure → Prop
  | .play fmt, .badArg       => s.PlayRejects fmt
  | .play fmt, .noVoice      => ¬s.PlayRejects fmt ∧ s.PoolFull (s.x.get 7).toInt
  | .mix, .badArg            => (s.x.get 0).toNat % 4 ≠ 0 ∨ 2 ^ 32 < (s.x.get 0).toNat + 4 * s.cfg.nf
  | .setlpf _ b a, .badArg   => 256 < a.toNat ∨ 256 < b.toNat ∨ 256 < a.toNat + b.toNat
  | .tbload, .badArg         => 2 ^ 32 < (s.x.get 0).toNat + 3328
  | .ovtimbre vo _, .badArg  => 9 ≤ vo.toNat
  | .ovvolume vo, .badArg    => 9 ≤ vo.toNat
  | .ovpitch vo, .badArg     => 9 ≤ vo.toNat
  | .ovtimbre vo _, .noTimbre => vo.toNat < 9 ∧ s.tbValid = false
  | .ovvolume vo, .noTimbre  =>
    ∃ k : Fin 9, k.val = vo.toNat ∧ (s.tbValid = false ∨ (s.ovoices.get k).timbre = none)
  | .ovpitch vo, .noTimbre   =>
    ∃ k : Fin 9, k.val = vo.toNat ∧ (s.tbValid = false ∨ (s.ovoices.get k).timbre = none)
  | .noteon _ _ vel, .noTimbre => vel ≠ 0 ∧ s.tbValid = false
  | .stop, .badHandle        => ¬∃ i v, s.HandleAt i v
  | .setpan, .badHandle      => ¬∃ i v, s.HandleAt i v
  | .setpitch, .badHandle    => ¬∃ i v, s.HandleAt i v
  | .setfreq, .badHandle     => ¬∃ i v, s.HandleAt i v
  | .isplaying, .badHandle   => ¬∃ i v, s.HandleAt i v
  | _, _                     => False

end Sys2Proof.Machine
end

