-- ==== Sys2Proof/WellFormed.lean ====
section
/-! DEFINITION. Which commands carry inline fields that their own rule accepts. The field widths are in the types of
Syntax.lean, so every term has an encoding. What is left to check is what 93_implementation_defined.md U2 calls reserved
operand combinations: such a word matches its row and is executed, and its rule makes it fail with `E_BADARG` in every
state (DESIGN CHOICE of the word well-formed, log 21). -/

namespace Sys2Proof

/-- 30_encoding.md R105: `ADP = 1` together with `F16 = 1` or `SGN = 1` is reserved. -/
def fmtAccepted (fmt : BitVec 4) : Bool :=
  !(fmt.getLsbD 2 && (fmt.getLsbD 0 || fmt.getLsbD 1))

/-- 30_encoding.md R106, 40_voice_pool.md R149: `alpha` and `beta` are 0..256 and sum to at most 256. -/
def lpfAccepted (beta alpha : BitVec 9) : Bool :=
  alpha.toNat ≤ 256 && beta.toNat ≤ 256 && alpha.toNat + beta.toNat ≤ 256

/-- 30_encoding.md R108: an OPL voice is 0..8. -/
def voAccepted (vo : BitVec 4) : Bool := vo.toNat < 9

/-- The inline fields are ones the command's rule accepts whatever the state. -/
def Instr.wellFormed : Instr → Bool
  | .play fmt             => fmtAccepted fmt
  | .setlpf _ beta alpha  => lpfAccepted beta alpha
  | .ovtimbre vo _        => voAccepted vo
  | .ovvolume vo          => voAccepted vo
  | .ovpitch vo           => voAccepted vo
  | .nop | .reset | .clrerr _ | .alloc | .stop | .stopall | .setpan | .setpitch | .setfreq | .isplaying
  | .countplaying | .hasfree | .setmastervol _ | .setrevstereo _ | .setmusicgen _ | .mix | .drain | .cback | .tbload
  | .oplreset | .oplalloff | .setmusicvol _ | .ovfind _ _ | .ovalloc _ _ | .noteoff _ _ _ | .noteon _ _ _
  | .keypressure _ _ _ | .controller _ _ _ | .progchange _ _ | .chanpressure _ _ | .pitchbend _ _ _ => true

end Sys2Proof
end

