-- ==== Sys2Proof/Certificates/Slice0/Obligations.lean ====
section
/-! DEFINITION. The statements for the provers. Each docstring names the rules of spec/ a statement formalises. -/

open Sys2Proof Sys2Proof.Machine

/-! ### Encoding -/

/-- 30_encoding.md R111, the match and mask columns, and that no two rows match the same word. -/
def Obligations.OpcodeRowsAreListedAndDisjoint : Prop :=
  opcodeTable.map (fun r => (r.mnemonic, r.value.toNat, r.mask.toNat)) = [
    ("NOP", 0x00000000, 0xFFFFFFFF), ("RESET", 0x01000000, 0xFFFFFFFF), ("CLRERR", 0x02000000, 0xFFFFFF00),
    ("ALLOC", 0x10000000, 0xFFFFFFFF), ("PLAY", 0x11000000, 0xFFFFFFF0), ("STOP", 0x12000000, 0xFFFFFFFF),
    ("STOPALL", 0x13000000, 0xFFFFFFFF), ("SETPAN", 0x14000000, 0xFFFFFFFF), ("SETPITCH", 0x15000000, 0xFFFFFFFF),
    ("SETFREQ", 0x16000000, 0xFFFFFFFF), ("ISPLAYING", 0x17000000, 0xFFFFFFFF),
    ("COUNTPLAYING", 0x18000000, 0xFFFFFFFF), ("HASFREE", 0x19000000, 0xFFFFFFFF),
    ("SETMASTERVOL", 0x1A000000, 0xFFFFFF00), ("SETREVSTEREO", 0x1B000000, 0xFFFFFFFE),
    ("SETLPF", 0x1C000000, 0xFFF80000), ("SETMUSICGEN", 0x1D000000, 0xFFFFFFFE), ("MIX", 0x20000000, 0xFFFFFFFF),
    ("DRAIN", 0x21000000, 0xFFFFFFFF), ("CBACK", 0x22000000, 0xFFFFFFFF), ("TBLOAD", 0x30000000, 0xFFFFFFFF),
    ("OPLRESET", 0x31000000, 0xFFFFFFFF), ("OPLALLOFF", 0x32000000, 0xFFFFFFFF),
    ("SETMUSICVOL", 0x33000000, 0xFFFFFF00), ("OVFIND", 0x34000000, 0xFFF080FF), ("OVALLOC", 0x35000000, 0xFFF000FF),
    ("OVTIMBRE", 0x36000000, 0xFFF000FF), ("OVVOLUME", 0x37000000, 0xFFF0FFFF), ("OVPITCH", 0x38000000, 0xFFF0FFFF),
    ("NOTEOFF", 0x80000000, 0xF08080FF), ("NOTEON", 0x90000000, 0xF08080FF), ("KEYPRESSURE", 0xA0000000, 0xF08080FF),
    ("CONTROLLER", 0xB0000000, 0xF08080FF), ("PROGCHANGE", 0xC0000000, 0xF080FFFF),
    ("CHANPRESSURE", 0xD0000000, 0xF080FFFF), ("PITCHBEND", 0xE0000000, 0xF08080FF)] ∧
  opcodeTable.Pairwise fun r r' => ∀ w : Word, ¬(w &&& r.mask = r.value ∧ w &&& r'.mask = r'.value)

/-- Decoding gives back every command that was encoded, with every field at every value (30_encoding.md R102, R112). -/
def Obligations.DecodeOfEncode : Prop := ∀ i : Instr, decode (encode i) = .ok i

/-- Every word that decodes is the encoding of what it decodes to, so a command has one word (30_encoding.md R102, R113). -/
def Obligations.EncodeOfDecode : Prop := ∀ (w : Word) (i : Instr), decode w = .ok i → encode i = w

/-- 30_encoding.md R113: which words are reserved, and what one does. -/
def Obligations.ReservedWordFails : Prop :=
  (∀ w : Word, (∀ r ∈ opcodeTable, w &&& r.mask ≠ r.value) ↔ ∃ e, decode w = .error e) ∧
  (∀ w : Word,
    let op := w.toNat / 2 ^ 24
    ((0x03 ≤ op ∧ op ≤ 0x0F) ∨ (0x1E ≤ op ∧ op ≤ 0x1F) ∨ (0x23 ≤ op ∧ op ≤ 0x2F) ∨ (0x39 ≤ op ∧ op ≤ 0x7F) ∨
      (0xF0 ≤ op ∧ op ≤ 0xFF)) → ∀ r ∈ opcodeTable, w &&& r.mask ≠ r.value) ∧
  ∀ (s : State) (w : Word) (rest : List HostAction), s.cfg.wf = true → s.busy = false →
    s.hostq = .regWrite 0x00 w :: rest → (∀ r ∈ opcodeTable, w &&& r.mask ≠ r.value) →
    step s = .next { s with hostq := rest, err := 1, errflags := s.errflags ||| 0x01, res := 0 }

/-- A step at which the host writes `CMD` while MDAE is not busy runs the decoded command with `BUSY = 1` and ends with
`BUSY = 0` (30_encoding.md R112). -/
def Obligations.StepRunsDecodedCommand : Prop :=
  ∀ (s : State) (w : Word) (rest : List HostAction) (i : Instr), s.cfg.wf = true → s.busy = false →
    s.hostq = .regWrite 0x00 w :: rest → decode w = .ok i →
    ∃ t, exec i { s with hostq := rest, busy := true } = .next t ∧ step s = .next { t with busy := false }

/-- A few words written out by hand from 30_encoding.md R102 and R111, one or more of each format. -/
def Obligations.SampleWordsDecode : Prop :=
  decode 0x00000000 = .ok .nop ∧
  decode 0x020000A5 = .ok (.clrerr 0xA5) ∧
  decode 0x1100000B = .ok (.play 0xB) ∧
  decode 0x1B000001 = .ok (.setrevstereo true) ∧
  decode 0x1C050080 = .ok (.setlpf true 128 128) ∧
  decode 0x340F7F00 = .ok (.ovfind 15 127) ∧
  decode 0x36020500 = .ok (.ovtimbre 2 5) ∧
  decode 0x38080000 = .ok (.ovpitch 8) ∧
  decode 0x913C7F00 = .ok (.noteon 1 60 127) ∧
  decode 0xC5070000 = .ok (.progchange 5 7) ∧
  decode 0xE2014000 = .ok (.pitchbend 2 1 64) ∧
  (∃ e, decode 0x903CFF00 = .error e) ∧ (∃ e, decode 0xC0050100 = .error e)

/-! ### The register window and MEM -/

/-- The word each register reads as, field by field at its bits (10_state.md R24, R26 to R34), for parameters in range. -/
def Obligations.RegistersReadTheirFields : Prop :=
  ∀ s : State, s.cfg.wf = true →
    (s.readReg 0x00).toNat = 0 ∧
    (s.readReg 0x04).toNat =
      s.busy.toNat + 2 * s.draining.toNat + 4 * s.cbValid.toNat + 8 * s.tbValid.toNat + 256 * s.err.toNat ∧
    s.readReg 0x08 = s.res ∧
    (s.readReg 0x0C).toNat = s.errflags.toNat ∧
    (s.readReg 0x10).toNat = s.revStereo.toNat + 2 * s.lpfEn.toNat + 4 * s.musicGen.toNat ∧
    (s.readReg 0x14).toNat = s.masterVol.toNat ∧
    (s.readReg 0x18).toNat = s.musicVol.toNat ∧
    (s.readReg 0x1C).toNat = s.alpha.toNat + 2 ^ 16 * s.beta.toNat ∧
    (s.readReg 0x20).toNat =
      s.cbq.count.toNat + 2 ^ 8 * s.cbq.head.toNat + 2 ^ 16 * s.cbq.tail.toNat + 2 ^ 24 * s.drainLeft.toNat ∧
    s.readReg 0x24 = s.cbToken ∧
    (s.readReg 0x28).toNat = s.gen.toNat ∧
    (s.readReg 0x2C).toNat =
      s.cfg.nv + 2 ^ 16 * (if s.cfg.variant = .b then 1 else 0) + 2 ^ 17 * s.cfg.percBanked.toNat ∧
    (s.readReg 0x30).toNat = s.cfg.fOut ∧
    (s.readReg 0x34).toNat = s.cfg.nf ∧
    (s.readReg 0x38).toNat = 0x4D444145 ∧
    s.readReg 0x3C = 0 ∧
    (∀ i : Fin 16, s.readReg (BitVec.ofNat 8 (0x40 + 4 * i.val)) = s.x.get i) ∧
    ∀ off : BitVec 8, 0x80 ≤ off.toNat → s.readReg off = 0

/-- 60_exceptions.md R381: a write to a read-only or reserved register is ignored, a read of `CMD` returns 0, and no read
changes a register. `hostData`, where the model keeps the word the host got, is its own (log 3). -/
def Obligations.RegisterAccessRules : Prop :=
  ∀ (s : State) (rest : List HostAction) (off : BitVec 8) (data : Word), s.cfg.wf = true → s.busy = false →
    off.toNat % 4 = 0 →
    (s.hostq = .regWrite off data :: rest → off ≠ 0 → off.toNat < 0x40 ∨ 0x80 ≤ off.toNat →
      step s = .next { s with hostq := rest }) ∧
    (s.hostq = .regRead off :: rest → step s = .next { s with hostq := rest, hostData := s.readReg off }) ∧
    (s.hostq = .regRead 0x00 :: rest → step s = .next { s with hostq := rest, hostData := 0 })

/-- The host's `LDX i, value` stores the word in `x[i]` and changes nothing else (10_state.md R21, 30_encoding.md R116). -/
def Obligations.LdxStoresTheOperand : Prop :=
  ∀ (s : State) (rest : List HostAction) (i : Fin 16) (value : Word), s.cfg.wf = true → s.busy = false →
    s.hostq = ldx i value :: rest →
    ∃ x' : Vector Word 16, step s = .next { s with hostq := rest, x := x' } ∧ x'.get i = value ∧
      ∀ j : Fin 16, j ≠ i → x'.get j = s.x.get j

/-- 70_reset_and_hazards.md R411: a write of `CMD` with `BUSY = 1` is dropped and sets `F_OVERRUN`. -/
def Obligations.BusyCommandIsDropped : Prop :=
  ∀ (s : State) (rest : List HostAction) (w : Word), s.cfg.wf = true → s.busy = true →
    s.hostq = .regWrite 0x00 w :: rest → step s = .next { s with hostq := rest, errflags := s.errflags ||| 0x80 }

/-- 20_memory.md R76: little-endian 16-bit reads and writes of MEM, and the bytes of a REG word. -/
def Obligations.ByteOrderIsLittleEndian : Prop :=
  (∀ (m : Memory) (a : Nat), (m.read16 a).toNat = (m.read a).toNat + 256 * (m.read (a + 1)).toNat) ∧
  (∀ (m : Memory) (a : Nat) (v : BitVec 16), m.wf → a + 1 < 2 ^ 32 →
    ((m.write16 a v).read a).toNat = v.toNat % 256 ∧ ((m.write16 a v).read (a + 1)).toNat = v.toNat / 256 ∧
    (m.write16 a v).wf ∧ ∀ b, b ≠ a → b ≠ a + 1 → (m.write16 a v).read b = m.read b) ∧
  ∀ b0 b1 b2 b3 : Byte,
    (wordOfBytes b0 b1 b2 b3).toNat = b0.toNat + 2 ^ 8 * b1.toNat + 2 ^ 16 * b2.toNat + 2 ^ 24 * b3.toNat ∧
    bytesOfWord (wordOfBytes b0 b1 b2 b3) = [b0, b1, b2, b3]

/-- The host's byte writes and reads of MEM (10_state.md R20, 20_memory.md R72): a write changes that byte and no other.
Two points are the model's choice, not the spec's: that an access with `BUSY = 1`, which 70_reset_and_hazards.md R410 forbids on
the command's ranges, is carried out all the same (log 24), and that `hostData` keeps the byte the host got (log 3). -/
def Obligations.HostAccessesMemory : Prop :=
  ∀ (s : State) (rest : List HostAction) (a : Word) (b : Byte), s.cfg.wf = true → s.mem.wf →
    (s.hostq = .memWrite a b :: rest → ∃ m : Memory, step s = .next { s with hostq := rest, mem := m } ∧ m.wf ∧
      m.read a.toNat = b ∧ ∀ a', a' ≠ a.toNat → m.read a' = s.mem.read a') ∧
    (s.hostq = .memRead a :: rest →
      ∃ w : Word, step s = .next { s with hostq := rest, hostData := w } ∧ w.toNat = (s.mem.read a.toNat).toNat)

/-! ### Reset -/

/-- The state after reset is a good state (Safety.lean, State.Inv). It holds the model's own choices (logs 1, 4, 6) beside the
spec's values. -/
def Obligations.ResetMeetsTheInvariant : Prop := State.reset.Inv

/-- What reset leaves, whatever the parameters (10_state.md R49, 70_reset_and_hazards.md R400): the values R49 gives, the
operand registers at 0 and the logs empty. -/
def Obligations.ResetStateHasTheListedValues : Prop :=
  ∀ c : Config, (State.resetWith c).HasResetValues ∧ (State.resetWith c).cfg = c ∧
    (∀ i : Fin 16, (State.resetWith c).x.get i = 0) ∧ (State.resetWith c).oplw = [] ∧ (State.resetWith c).cbout = [] ∧
    State.reset = State.resetWith State.reset.cfg

/-- 46_system.md R331: what the `RESET` command sets and what it keeps. -/
def Obligations.ResetCommandResult : Prop :=
  ∀ s : State, ∃ t, exec .reset s = .next t ∧ t.HasResetValues ∧ t.x = s.x ∧ t.oplw = s.oplw ∧ t.cbout = s.cbout ∧
    t.mem = s.mem ∧ t.cfg = s.cfg ∧ t.hostq = s.hostq ∧ t.hostData = s.hostData

/-- 10_state.md R50: a hardware reset leaves what `RESET` leaves but for the operand registers and the logs, and emits no OPL
write. Two points of the equality are the model's, not the spec's: the fields that R49 leaves unspecified hold the same free
values after both (log 5), and a hardware reset in a run keeps MEM, the host's list and `hostData` (log 18). -/
def Obligations.HardwareResetDiffersInTwoPoints : Prop :=
  ∀ (s : State) (rest : List HostAction), s.cfg.wf = true → s.hostq = .hwReset :: rest →
    ∃ t u, step s = .next t ∧ exec .reset { s with hostq := rest } = .next u ∧
      t = { u with x := Vector.replicate 16 0, oplw := [], cbout := [] } ∧ t.HasResetValues ∧ u.x = s.x ∧
      u.oplw = s.oplw ∧ u.cbout = s.cbout

/-! ### The whole machine -/

/-- Every step keeps a good state good (Safety.lean, State.Inv): 10_state.md R36 (I2, I3), R40, R41; 43_callback_queue.md
R237 (a); 44_opl_allocator.md R250; the memory's canonical form; and from every good state, not only from reset.
That an end at `2^32` is held as 0 is the model's inference (log 7). -/
def Obligations.StepKeepsTheInvariant : Prop := ∀ s t : State, s.Inv → step s = .next t → t.Inv

/-- Two slots never hold the same non-zero generation until the counter wraps (10_state.md R36 (I4), 40_voice_pool.md
R131). -/
def Obligations.StepKeepsGenerationsDistinct : Prop :=
  ∀ s t : State, s.GensDistinct → s.gen ≠ 0xFFFFFF → step s = .next t → t.GensDistinct

/-- From a good state a step answers a next state unless the next access is one of REG that is not an aligned word, and refuses
that one (10_state.md R34, 60_exceptions.md R370). The refusal is the model's choice (93_implementation_defined.md U7, log 10). -/
def Obligations.GoodStatesStepSafely : Prop := ∀ s : State, s.Inv → safeStep s

/-- Every command completes, and fails exactly when 60_exceptions.md R371 and R374 say, with that code, its sticky flag,
`RES = 0` and nothing else changed (R375). A command whose fields its own rule always rejects (93_implementation_defined.md
U2; the model calls it ill-formed, log 21) is one that fails with `E_BADARG`. -/
def Obligations.CommandsFailExactlyWhenListed : Prop :=
  (∀ (i : Instr) (s : State), ∃ t, exec i s = .next t ∧
    (∀ e, s.FailsWith i e → t = { s with err := e.code, errflags := s.errflags ||| e.flag.mask, res := 0 }) ∧
    ((∀ e, ¬s.FailsWith i e) → t.err = 0) ∧ (i.wellFormed = false → s.FailsWith i .badArg)) ∧
  [Failure.badCmd, .badArg, .badHandle, .noVoice, .noTimbre].map (fun e => (e.code.toNat, e.flag.mask.toNat)) =
    [(1, 1), (2, 2), (3, 4), (4, 8), (5, 16)]

/-- No command writes an operand register (10_state.md R21) or a parameter (R48); the tables, MEM and the settings change
only by the commands that R28, R29, R30, R33, R41, R44 and R45 name. -/
def Obligations.CommandsWriteOnlyTheirOwnState : Prop :=
  ∀ (i : Instr) (s t : State), exec i s = .next t →
    t.x = s.x ∧ t.cfg = s.cfg ∧ t.hostq = s.hostq ∧ t.hostData = s.hostData ∧
    ((∀ c n v, i ≠ .controller c n v) → (∀ c p, i ≠ .progchange c p) → (∀ c l m, i ≠ .pitchbend c l m) → i ≠ .oplreset →
      i ≠ .reset → t.chans = s.chans) ∧
    (i ≠ .tbload → i ≠ .reset → t.tb = s.tb ∧ t.tbValid = s.tbValid) ∧
    (i ≠ .drain → i ≠ .cback → i ≠ .reset →
      t.draining = s.draining ∧ t.drainLeft = s.drainLeft ∧ t.cbValid = s.cbValid ∧ t.cbToken = s.cbToken ∧
      t.cbout = s.cbout) ∧
    ((∀ f, i ≠ .play f) → i ≠ .reset → t.gen = s.gen) ∧
    ((∀ n, i ≠ .setmastervol n) → i ≠ .reset → t.masterVol = s.masterVol) ∧
    ((∀ n, i ≠ .setmusicvol n) → i ≠ .reset → t.musicVol = s.musicVol) ∧
    ((∀ b, i ≠ .setrevstereo b) → i ≠ .reset → t.revStereo = s.revStereo) ∧
    ((∀ b, i ≠ .setmusicgen b) → i ≠ .reset → t.musicGen = s.musicGen) ∧
    ((∀ e b a, i ≠ .setlpf e b a) → i ≠ .reset → t.lpfEn = s.lpfEn ∧ t.alpha = s.alpha ∧ t.beta = s.beta)

/-- Only `MIX` writes MEM (20_memory.md R72, R84), and it does not write outside `[buf, buf + 4 * NF)` (42_mixer.md R210). -/
def Obligations.OnlyMixWritesMemory : Prop :=
  ∀ (i : Instr) (s t : State), exec i s = .next t →
    (i ≠ .mix → t.mem = s.mem) ∧
    ∀ a : Nat, a < (s.x.get 0).toNat ∨ (s.x.get 0).toNat + 4 * s.cfg.nf ≤ a → t.mem.read a = s.mem.read a

/-- The two observation logs only grow, in the order of the commands, and a command presents at most one token (10_state.md
R46, 43_callback_queue.md R233). -/
def Obligations.LogsOnlyGrow : Prop :=
  ∀ (i : Instr) (s t : State), exec i s = .next t →
    (∃ ws, t.oplw = s.oplw ++ ws) ∧ ∃ ts : List Word, t.cbout = s.cbout ++ ts ∧ ts.length ≤ 1

/-- A sticky flag stays set under every command but `CLRERR` and `RESET` (10_state.md R27). -/
def Obligations.StickyFlagsStaySet : Prop :=
  ∀ (i : Instr) (s t : State), exec i s = .next t → (∀ n, i ≠ .clrerr n) → i ≠ .reset →
    s.errflags &&& t.errflags = s.errflags

/-! ### System commands and settings -/

/-- 46_system.md R330 and R332, 44_opl_allocator.md R265, 30_encoding.md R114: `NOP` and the hints complete and change nothing
but `RES` and `STATUS.ERR`; `CLRERR` clears the masked flags and returns the flags as they were. -/
def Obligations.NopClrerrAndHintsResult : Prop :=
  ∀ s : State,
    exec .nop s = .next { s with res := 0, err := 0 } ∧
    (∀ imm8, ∃ flags : BitVec 8, ∃ r : Word,
      exec (.clrerr imm8) s = .next { s with errflags := flags, res := r, err := 0 } ∧ r.toNat = s.errflags.toNat ∧
      ∀ b : Nat, b < 8 → flags.getLsbD b = (s.errflags.getLsbD b && !imm8.getLsbD b)) ∧
    (∀ ch d1 d2, exec (.keypressure ch d1 d2) s = .next { s with res := 0, err := 0 }) ∧
    (∀ ch d1, exec (.chanpressure ch d1) s = .next { s with res := 0, err := 0 }) ∧
    ∀ ch num val, num ≠ 7 → num ≠ 10 → num ≠ 123 → exec (.controller ch num val) s = .next { s with res := 0, err := 0 }

/-- 40_voice_pool.md R149 to R152: the four settings of the sample path. -/
def Obligations.SettingsResult : Prop :=
  ∀ s : State,
    (∀ imm8, exec (.setmastervol imm8) s = .next { s with masterVol := imm8, res := 0, err := 0 }) ∧
    (∀ b, exec (.setrevstereo b) s = .next { s with revStereo := b, res := 0, err := 0 }) ∧
    (∀ b, exec (.setmusicgen b) s = .next { s with musicGen := b, res := 0, err := 0 }) ∧
    ∀ (en : Bool) (beta alpha : BitVec 9),
      (alpha.toNat + beta.toNat ≤ 256 →
        exec (.setlpf en beta alpha) s =
          .next { s with alpha := alpha, beta := beta, lpfEn := en, res := 0, err := 0 }) ∧
      (256 < alpha.toNat + beta.toNat →
        exec (.setlpf en beta alpha) s = .next { s with err := 2, errflags := s.errflags ||| 0x02, res := 0 })

/-! ### The voice pool -/

/-- 40_voice_pool.md R133, R135 and R148: what the arbiter answers, by `ALLOC` and `HASFREE`. -/
def Obligations.AllocAndHasfreeResult : Prop :=
  ∀ s : State,
    (∀ (i : Nat) (v : Voice), s.ArbiterGives (s.x.get 7).toInt i v →
      exec .alloc s = .next { s with res := BitVec.ofNat 32 i, err := 0 } ∧
      exec .hasfree s = .next { s with res := 1, err := 0 }) ∧
    (s.PoolFull (s.x.get 7).toInt →
      exec .alloc s = .next { s with res := 0xFFFFFFFF, err := 0 } ∧
      exec .hasfree s = .next { s with res := 0, err := 0 }) ∧
    ((∃ i v, s.ArbiterGives (s.x.get 7).toInt i v) ∨ s.PoolFull (s.x.get 7).toInt)

/-- 40_voice_pool.md R136, R139, R131, R134: a `PLAY` that is accepted programs the slot the arbiter gives, starts the decoder
(41_refill_adpcm.md R175, R179), prefills it, enqueues the token of a stolen sound, advances `GEN` and returns the handle.
What `srcCur`, `srcEnd`, `loopStart` and `loopEnd` hold is the address in 32 bits; that an end at `2^32` is held as 0 is the
model's inference, not the spec's (log 7). -/
def Obligations.PlayStartsTheVoice : Prop :=
  ∀ (s : State) (fmt : BitVec 4) (i : Nat) (v : Voice), ¬s.PlayRejects fmt → s.ArbiterGives (s.x.get 7).toInt i v →
    let rate := if (s.x.get 2).toNat = 0 then 11025 else (s.x.get 2).toNat
    let vols := setvol (s.x.get 4).toInt (s.x.get 5).toInt (s.x.get 6).toInt
    let ptr := (s.x.get 0).toNat
    let p : Voice := { v with
      active := true, token := s.x.get 8, prio := s.x.get 7
      f16 := fmt.getLsbD 0, fsigned := fmt.getLsbD 1, fadpcm := fmt.getLsbD 2
      baseRate := BitVec.ofNat 32 rate, pitch := s.x.get 3, step := calcstep s.cfg rate (s.x.get 3).toInt
      volL := vols.1, volR := vols.2
      srcCur := BitVec.ofNat 32 ptr, srcEnd := BitVec.ofNat 32 (ptr + (s.x.get 1).toNat)
      looping := fmt.getLsbD 3
      loopStart := if fmt.getLsbD 3 then BitVec.ofNat 32 (ptr + (s.x.get 9).toNat) else v.loopStart
      loopEnd := if fmt.getLsbD 3 then BitVec.ofNat 32 (ptr + (s.x.get 10).toNat) else v.loopEnd
      pos := 0, lcount := 0, lpPrev := 0 }
    let first := s.mem.read ptr
    let d : Voice := if fmt.getLsbD 2 then
        (match s.cfg.variant with
          | .a => { p with ad := { p.ad with ref0 := first, ref := first, scale := 0 }, srcCur := BitVec.ofNat 32 (ptr + 1) }
          | .b => { p with ad := { p.ad with pred := 0, index := 0 } })
      else p
    let w := d.refill s.cfg s.mem
    let g : BitVec 24 := if s.gen = 0xFFFFFF then 1 else s.gen + 1
    1 ≤ w.lcount.toNat ∧ w.lcount.toNat ≤ 256 ∧ w.pos = 0 ∧ g ≠ 0 ∧
    exec (.play fmt) s = .next { s with
      voices := s.voices.set i { w with gen := g }
      cbq := if v.active then s.cbq.enqueue v.token else s.cbq
      errflags := if v.active ∧ s.cbq.count = 32 then s.errflags ||| 0x20 else s.errflags
      gen := g, res := g ++ BitVec.ofNat 8 i, err := 0 }

/-- 40_voice_pool.md R141 and R142: a stop is silent and changes `v.active` only. R146 and R147: what the two queries answer. -/
def Obligations.StopAndPlayingQueriesResult : Prop :=
  (∀ (s : State) (i : Nat) (v : Voice), s.HandleAt i v →
    exec .stop s = .next { s with voices := s.voices.set i { v with active := false }, res := 0, err := 0 } ∧
    exec .isplaying s = .next { s with res := if v.active then 1 else 0, err := 0 }) ∧
  ∀ s : State,
    exec .stopall s = .next { s with voices := s.voices.map fun v => { v with active := false }, res := 0, err := 0 } ∧
    exec .countplaying s =
      .next { s with res := BitVec.ofNat 32 (s.voices.filter fun v => v.active).length, err := 0 }

/-- 40_voice_pool.md R143, R144, R145 with R137: what the three change commands do to the voice of a valid handle. -/
def Obligations.SetpanSetpitchSetfreqResult : Prop :=
  ∀ (s : State) (i : Nat) (v : Voice), s.HandleAt i v →
    let vol := (s.x.get 4).toInt
    let left := (s.x.get 5).toInt
    let right := (s.x.get 6).toInt
    let silent := left ≤ 0 ∧ right ≤ 0
    let rate := if (s.x.get 2).toNat = 0 then 11025 else (s.x.get 2).toNat
    (v.active = false →
      exec .setpan s = .next { s with res := 0, err := 0 } ∧ exec .setpitch s = .next { s with res := 0, err := 0 } ∧
      exec .setfreq s = .next { s with res := 0, err := 0 }) ∧
    (v.active = true →
      (∃ l r : BitVec 8,
        exec .setpan s = .next { s with voices := s.voices.set i { v with volL := l, volR := r }, res := 0, err := 0 } ∧
        (l.toNat : Int) = clamp ((if silent then vol else left) * 4) 0 255 ∧
        (r.toNat : Int) = clamp ((if silent then vol else right) * 4) 0 255) ∧
      exec .setpitch s = .next { s with
        voices := s.voices.set i { v with
          pitch := s.x.get 3, step := calcstep s.cfg v.baseRate.toNat (s.x.get 3).toInt }
        res := 0, err := 0 } ∧
      exec .setfreq s = .next { s with
        voices := s.voices.set i { v with
          baseRate := BitVec.ofNat 32 rate, step := calcstep s.cfg rate v.pitch.toInt }
        res := 0, err := 0 })

/-- 40_voice_pool.md R138: the step of a rate and a pitch, with its bounds. -/
def Obligations.CalcstepRoundsToNearest : Prop :=
  ∀ (c : Config) (rate : Nat) (pitch : Int), 1000 ≤ c.fOut → c.fOut ≤ 1000000 →
    let raw : Int := rate + ((rate : Int) * pitch).tdiv 2048
    let adj : Int := if raw < 1000 then 1000 else if 48000 < raw then 48000 else raw
    let st : Int := (calcstep c rate pitch).toNat
    st * c.fOut ≤ adj * 2 ^ 16 + (c.fOut / 2 : Nat) ∧ adj * 2 ^ 16 + (c.fOut / 2 : Nat) < (st + 1) * c.fOut ∧
    66 ≤ st ∧ st ≤ 3145728

/-! ### The refill unit and the decoders -/

/-- 41_refill_adpcm.md R171 and R173 for PCM: how many samples a refill delivers, what each is, and what else changes. The
bytes left are the difference of the effective end and the cursor in 32 bits: the model's inference (log 7). -/
def Obligations.PcmRefillResult : Prop :=
  ∀ (c : Config) (m : Memory) (v : Voice), v.fadpcm = false →
    let unit := if v.f16 then 2 else 1
    let eff := if v.looping then v.loopEnd else v.srcEnd
    let units := (eff - v.srcCur).toNat / unit
    let n := min 256 units
    units ≠ 0 →
    ∃ buf : List (BitVec 8),
      v.refill c m = { v with
        lbuf := buf, lcount := BitVec.ofNat 9 n, srcCur := v.srcCur + BitVec.ofNat 32 (n * unit) } ∧
      (∀ k, k < n → ∃ y, buf[k]? = some y ∧
        let b := m.read (v.srcCur.toNat + unit * k + (unit - 1))
        y.toInt = if v.fsigned then b.toInt else (b.toNat : Int) - 128) ∧
      ∀ k, n ≤ k → buf[k]? = v.lbuf[k]?

/-- 41_refill_adpcm.md R171 and R174 for ADPCM: the codes of up to 128 bytes, the high one first, go through the decoder in
order; and the decoder is that of the built variant (00_scope.md R8).
The bytes left are the 32-bit difference of end and cursor: the model's inference (log 7). -/
def Obligations.AdpcmRefillResult : Prop :=
  (∀ (c : Config) (ad : Adpcm) (n : BitVec 4),
    (c.variant = .a → adpcmDecode c ad n = adpcmDecodeA c ad n) ∧
    (c.variant = .b → adpcmDecode c ad n = adpcmDecodeB c ad n)) ∧
  ∀ (c : Config) (m : Memory) (v : Voice), v.fadpcm = true → v.f16 = false →
    let eff := if v.looping then v.loopEnd else v.srcEnd
    let nb := min 128 (eff - v.srcCur).toNat
    let codes : List (BitVec 4) := (List.range nb).flatMap fun k =>
      let b := m.read (v.srcCur.toNat + k)
      [b.extractLsb' 4 4, b.extractLsb' 0 4]
    let run := codes.foldl (fun (st : Adpcm × List (BitVec 8)) n =>
      let r := adpcmDecode c st.1 n
      (r.1, st.2 ++ [r.2])) (v.ad, [])
    v.srcCur ≠ eff →
    v.refill c m = { v with
      lbuf := run.2 ++ v.lbuf.drop (2 * nb), lcount := BitVec.ofNat 9 (2 * nb)
      srcCur := v.srcCur + BitVec.ofNat 32 nb, ad := run.1 }

/-- 41_refill_adpcm.md R170, R172: a refill delivers nothing exactly when a non-looping source is exhausted; at the end of a
loop it resumes at the loop's start with the decoder reset.
The bytes left are the 32-bit difference of end and cursor: the model's inference (log 7). -/
def Obligations.RefillEndsOrRewinds : Prop :=
  ∀ (c : Config) (m : Memory) (v : Voice),
    let unit := if v.f16 then 2 else 1
    let eff := if v.looping then v.loopEnd else v.srcEnd
    let left := (eff - v.srcCur).toNat
    (v.looping = true → unit ≤ (v.loopEnd - v.loopStart).toNat) →
    ((v.refill c m).lcount = 0 ↔ v.looping = false ∧ left < unit) ∧
    (v.looping = false → left < unit → v.refill c m = { v with lcount := 0 }) ∧
    (v.looping = true → left < unit →
      v.refill c m = Voice.refill
        { v with
          srcCur := v.loopStart
          ad := if v.fadpcm then
              (match c.variant with
                | .a => { v.ad with ref := v.ad.ref0, scale := 0 }
                | .b => { v.ad with pred := 0, index := 0 })
            else v.ad } c m)

/-- A refill reads only bytes of the source: between the cursor (or the loop's start) and the effective end
(41_refill_adpcm.md R171). Two memories that agree on the bytes left from there give the same refill.
The bytes left are the 32-bit difference of end and cursor: the model's inference (log 7). -/
def Obligations.RefillReadsOnlyItsSource : Prop :=
  ∀ (c : Config) (m m' : Memory) (v : Voice),
    let eff := if v.looping then v.loopEnd else v.srcEnd
    (∀ k, k < (eff - v.srcCur).toNat → m.read (v.srcCur.toNat + k) = m'.read (v.srcCur.toNat + k)) →
    (v.looping = true → ∀ k, k < (eff - v.loopStart).toNat →
      m.read (v.loopStart.toNat + k) = m'.read (v.loopStart.toNat + k)) →
    v.refill c m = v.refill c m'

/-- 41_refill_adpcm.md R183: each refill of a non-looping voice returns `min(256, remaining)` and leaves that many fewer.
(ADPCM with 16-bit samples is the reserved format combination that `PLAY` refuses, 40_voice_pool.md R136.)
The bytes left are the 32-bit difference of end and cursor: the model's inference (log 7). -/
def Obligations.RefillCountsTheSamplesDown : Prop :=
  ∀ (c : Config) (m : Memory) (v : Voice), v.looping = false → ¬(v.fadpcm = true ∧ v.f16 = true) →
    (v.refill c m).lcount.toNat = min 256 v.samplesLeft ∧
    (v.refill c m).samplesLeft = v.samplesLeft - min 256 v.samplesLeft

/-- 41_refill_adpcm.md R176 and R180: one step of each decoder, for parameters in range. -/
def Obligations.AdpcmDecodeStep : Prop :=
  ∀ (c : Config) (ad : Adpcm) (n : BitVec 4), c.wf = true →
    (let idx := min (n.toNat + ad.scale.toNat) 63
     let r := adpcmDecodeA c ad n
     ∃ d : Int, ∃ j : Nat, c.scaleMap[idx]? = some d ∧ c.adjustMap[idx]? = some j ∧
       (r.1.ref.toNat : Int) = clamp (ad.ref.toNat + d) 0 255 ∧ r.1.scale.toNat = (ad.scale.toNat + j) % 256 ∧
       r.2.toInt = (r.1.ref.toNat : Int) - 128 ∧ r.1 = { ad with ref := r.1.ref, scale := r.1.scale }) ∧
    (ad.index.toNat ≤ 88 →
     let r := adpcmDecodeB c ad n
     ∃ st : Nat, ∃ d : Int, c.imaStep[ad.index.toNat]? = some st ∧ c.imaIndex[n.toNat % 8]? = some d ∧
       (let diff : Int := (st / 8 + (if n.getLsbD 2 then st else 0) + (if n.getLsbD 1 then st / 2 else 0) +
          (if n.getLsbD 0 then st / 4 else 0) : Nat)
        r.1.pred.toInt = clamp (if n.getLsbD 3 then ad.pred.toInt - diff else ad.pred.toInt + diff) (-32768) 32767) ∧
       (r.1.index.toNat : Int) = clamp (ad.index.toNat + d) 0 88 ∧ r.2.toInt = r.1.pred.toInt / 256 ∧
       r.1 = { ad with pred := r.1.pred, index := r.1.index })

/-! ### The mixer -/

/-- `MIX` with a legal buffer completes; it changes voices, MEM, the queue and two flags only; it never touches what R210
keeps; a voice it ends is one that was active, and `RES` counts them (42_mixer.md R200, R210). The tokens of the voices it ends
go to the queue, each once, in slot order (R203, R208; 43_callback_queue.md R231), `F_CBQ_OVF` is set when not all of them fit,
and `F_REFILL_CAP` only when a voice is left active at position 0 (R209). -/
def Obligations.MixCompletes : Prop :=
  ∀ s : State, s.Inv → (s.x.get 0).toNat % 4 = 0 → (s.x.get 0).toNat + 4 * s.cfg.nf ≤ 2 ^ 32 →
    ∃ (vs : List Voice) (m : Memory) (cap : BitVec 8) (r : Word),
      let ended := ((s.voices.zip vs).filter fun p => p.1.active && !p.2.active).map fun p => p.1.token
      let full : BitVec 8 := if 32 < s.cbq.count.toNat + ended.length then 0x20 else 0
      exec .mix s = .next { s with
        voices := vs, mem := m, cbq := ended.foldl (fun q t => q.enqueue t) s.cbq
        errflags := s.errflags ||| full ||| cap, res := r, err := 0 } ∧
      (ended.foldl (fun q t => q.enqueue t) s.cbq).tokens = (s.cbq.tokens ++ ended).take 32 ∧
      (cap = 0 ∨ (cap = 0x40 ∧ ∃ w ∈ vs, w.active = true ∧ w.pos = 0)) ∧
      r.toNat = ended.length ∧ vs.length = s.voices.length ∧
      (∀ (j : Nat) (v w : Voice), s.voices[j]? = some v → vs[j]? = some w →
        (w.active = true → v.active = true) ∧ (v.active = false → w = v) ∧
        (v.active = true → w.active = false → w.lcount = 0 ∧ w.pos = 0) ∧
        w.step = v.step ∧ w.volL = v.volL ∧ w.volR = v.volR ∧ w.gen = v.gen ∧ w.token = v.token ∧ w.prio = v.prio) ∧
      r.toNat + vs.countP (·.active) = s.voices.countP (·.active) ∧
      ∀ a, a < (s.x.get 0).toNat ∨ (s.x.get 0).toNat + 4 * s.cfg.nf ≤ a → m.read a = s.mem.read a

/-- With no voice taking part, `MIX` leaves the bed (42_mixer.md R200, R201, R203): silence with no music generator
registered, the host's own samples with one. -/
def Obligations.MixOfNoVoiceIsTheBed : Prop :=
  ∀ s : State, s.mem.wf → (s.x.get 0).toNat % 4 = 0 → (s.x.get 0).toNat + 4 * s.cfg.nf ≤ 2 ^ 32 →
    (∀ v ∈ s.voices, v.active = false ∨ v.lcount = 0) →
    ∃ m : Memory, exec .mix s = .next { s with mem := m, res := 0, err := 0 } ∧
      (s.musicGen = true → m = s.mem) ∧
      (s.musicGen = false → ∀ a, m.read a =
        if (s.x.get 0).toNat ≤ a ∧ a < (s.x.get 0).toNat + 4 * s.cfg.nf then 0 else s.mem.read a)

/-- Voices whose buffered samples last for the whole pass, any number of them, filter on or off, over silence or the bed of a
music generator: frame `f` of the sink is the bed, to which each sounding voice adds, in slot order and with a clamp after each,
its sample at the integer part of its position (or the filter's output) times its gain; every position advances by `NF` steps
(42_mixer.md R201 to R207). -/
def Obligations.MixAddsVoicesInSlotOrder : Prop :=
  ∀ s : State, s.mem.wf → (s.lpfEn = true → s.alpha.toNat + s.beta.toNat ≤ 256) →
    (s.x.get 0).toNat % 4 = 0 → (s.x.get 0).toNat + 4 * s.cfg.nf ≤ 2 ^ 32 →
    let sounds (v : Voice) : Bool := v.active && decide (v.lcount ≠ 0)
    (∀ v ∈ s.voices, sounds v = true → v.positionAt s.cfg.nf < v.lcount.toNat * 2 ^ 16) →
    let output (v : Voice) : List Int := s.heard v.lpPrev.toInt
      ((List.range s.cfg.nf).map fun f => (v.lbuf.getD (v.positionAt f / 2 ^ 16) 0).toInt)
    ∃ m : Memory,
      exec .mix s = .next { s with
        voices := s.voices.map fun v => if sounds v then { v with
            pos := BitVec.ofNat 32 (v.positionAt s.cfg.nf), lpPrev := s.filterMemory v.lpPrev (output v) } else v
        mem := m, res := 0, err := 0 } ∧
      s.SinkHolds m ((s.voices.filter sounds).map fun v => (v, output v))

/-- A voice whose buffers run out within the pass, alone in the mix, with its source outside the sink: its samples are those of
its buffer and of the refills, in one row, and a position that has advanced past a buffer is reduced by that buffer's count
(42_mixer.md R206, R208). With `k` refills made it plays on; or the `k`-th refill brought nothing, and it is finalized with
position 0 after the first frame that used up all before; or a 21st refill would be needed, and it is left active with position
0 and `F_REFILL_CAP` set (R209). In the last two cases the later frames get nothing from it.
That a loop's end at `2^32` is held as 0 is the model's inference (log 7). -/
def Obligations.MixRefillsAndEndsAVoice : Prop :=
  ∀ (s : State) (j k frames : Nat) (v : Voice), s.Inv →
    let buf := (s.x.get 0).toNat
    buf % 4 = 0 → buf + 4 * s.cfg.nf ≤ 2 ^ 32 → s.voices[j]? = some v → v.active = true →
    (∀ (i : Nat) (w : Voice), i ≠ j → s.voices[i]? = some w → w.active = false) →
    (∀ a, buf ≤ a → a < buf + 4 * s.cfg.nf →
      (a < v.srcCur.toNat ∨ v.srcCur.toNat + v.bytesLeft ≤ a) ∧
      (v.looping = true → a < v.loopStart.toNat ∨ endAddress v.loopEnd ≤ a)) →
    let before (i : Nat) := 2 ^ 16 * v.samplesBefore s.cfg s.mem i
    let last := v.refilled s.cfg s.mem k
    let output := s.heard v.lpPrev.toInt
      ((List.range frames).map fun f => ((v.stream s.cfg s.mem k).getD (v.positionAt f / 2 ^ 16) 0).toInt)
    let w : Voice := { last with lpPrev := s.filterMemory v.lpPrev output }
    k ≤ 20 → (∀ i, i < k → (v.refilled s.cfg s.mem i).lcount ≠ 0) → frames ≤ s.cfg.nf →
    (frames = s.cfg.nf → before k ≤ v.positionAt frames → v.positionAt frames < before (k + 1) →
      ∃ m, s.SinkHolds m [(v, output)] ∧ exec .mix s = .next { s with
        voices := s.voices.set j { w with pos := BitVec.ofNat 32 (v.positionAt frames - before k) }
        mem := m, res := 0, err := 0 }) ∧
    (last.lcount = 0 → before k ≤ v.positionAt frames → (∀ f, f < frames → v.positionAt f < before k) →
      ∃ m, s.SinkHolds m [(v, output)] ∧ exec .mix s = .next { s with
        voices := s.voices.set j { w with active := false, pos := 0 }
        cbq := s.cbq.enqueue v.token, errflags := if s.cbq.count = 32 then s.errflags ||| 0x20 else s.errflags
        mem := m, res := 1, err := 0 }) ∧
    (k = 20 → last.lcount ≠ 0 → before 21 ≤ v.positionAt frames → (∀ f, f < frames → v.positionAt f < before 21) →
      ∃ m, s.SinkHolds m [(v, output)] ∧ exec .mix s = .next { s with
        voices := s.voices.set j { w with pos := 0 }
        errflags := s.errflags ||| 0x40, mem := m, res := 0, err := 0 })

/-- 42_mixer.md R205: one frame of one voice adds to the two channels with saturation and touches no other byte. -/
def Obligations.FrameAccumulatesWithSaturation : Prop :=
  ∀ (s : State) (gl gr a : Nat) (v : Voice) (m : Memory), m.wf → a + 4 ≤ 2 ^ 32 →
    let m' := s.mixFrameMem (gl, gr) a v m
    (m'.read16 a).toInt = clamp ((m.read16 a).toInt + s.mixSample v * gl) (-32768) 32767 ∧
    (m'.read16 (a + 2)).toInt = clamp ((m.read16 (a + 2)).toInt + s.mixSample v * gr) (-32768) 32767 ∧
    m'.wf ∧ ∀ b, b < a ∨ a + 4 ≤ b → m'.read b = m.read b

/-- 42_mixer.md R207 with 40_voice_pool.md R149: the filter's output is `tdiv(BETA * lp_prev + ALPHA * s, 256)` and stays a
signed 8-bit value, so that storing it loses nothing; and a gain is 0..127 (R202). -/
def Obligations.FilterAndGainsStayInRange : Prop :=
  ∀ (s : State) (v : Voice), s.alpha.toNat + s.beta.toNat ≤ 256 →
    s.lowPass v = ((s.beta.toNat : Int) * v.lpPrev.toInt + s.alpha.toNat * (v.lbuf.getD (v.pos.toNat / 2 ^ 16) 0).toInt).tdiv 256 ∧
    -128 ≤ s.lowPass v ∧ s.lowPass v ≤ 127 ∧
    (s.lpfEn = true → ((s.mixFrameVoice v).lpPrev.toInt = s.lowPass v ∧ s.mixSample v = s.lowPass v)) ∧
    (s.lpfEn = false → (s.mixFrameVoice v).lpPrev = v.lpPrev) ∧
    (s.gains v).1 ≤ 127 ∧ (s.gains v).2 ≤ 127

/-- 42_mixer.md R211 (c): a looping voice is never finalized by `MIX`. -/
def Obligations.MixNeverEndsALoopingVoice : Prop :=
  ∀ (s t : State) (j : Nat) (v w : Voice), s.Inv → exec .mix s = .next t → s.voices[j]? = some v →
    t.voices[j]? = some w → v.active = true → v.looping = true → w.active = true ∧ w.looping = true

/-! ### The callback queue -/

/-- 43_callback_queue.md R233, R234: the three ways `DRAIN` ends. -/
def Obligations.DrainResult : Prop :=
  ∀ s : State,
    (s.draining = true → exec .drain s = .next { s with res := 0, err := 0 }) ∧
    (s.draining = false → s.cbq.count = 0 →
      exec .drain s = .next { s with draining := false, cbValid := false, drainLeft := 0, res := 0, err := 0 }) ∧
    (s.draining = false → s.cbq.count ≠ 0 →
      let tok := s.cbq.ent.get s.cbq.head.toFin
      exec .drain s = .next { s with
        draining := true, drainLeft := 7, cbValid := true, cbToken := tok, cbout := s.cbout ++ [tok]
        cbq := { s.cbq with head := s.cbq.head + 1, count := s.cbq.count - 1 }, res := 1, err := 0 })

/-- 43_callback_queue.md R233, R235: the three ways `CBACK` ends. -/
def Obligations.CbackResult : Prop :=
  ∀ s : State,
    (s.draining = false ∨ s.cbValid = false → exec .cback s = .next { s with res := 0, err := 0 }) ∧
    (s.draining = true → s.cbValid = true → s.cbq.count = 0 ∨ s.drainLeft = 0 →
      exec .cback s = .next { s with draining := false, cbValid := false, drainLeft := 0, res := 0, err := 0 }) ∧
    (s.draining = true → s.cbValid = true → s.cbq.count ≠ 0 → s.drainLeft ≠ 0 →
      let tok := s.cbq.ent.get s.cbq.head.toFin
      exec .cback s = .next { s with
        drainLeft := s.drainLeft - 1, cbToken := tok, cbout := s.cbout ++ [tok]
        cbq := { s.cbq with head := s.cbq.head + 1, count := s.cbq.count - 1 }, res := 1, err := 0 })

/-- 43_callback_queue.md R231, R232, R237 (a) to (c): first in, first out, and a full queue drops the newest token and keeps
everything it holds. -/
def Obligations.QueueIsFirstInFirstOut : Prop :=
  ∀ (q : CallbackQueue) (t : Word), q.Ok →
    (q.count = 32 → q.enqueue t = q) ∧
    (q.count ≠ 32 → (q.enqueue t).tokens = q.tokens ++ [t] ∧ (q.enqueue t).Ok ∧ (q.enqueue t).head = q.head) ∧
    (q.count ≠ 0 → q.tokens = q.front :: q.pop.tokens ∧ q.pop.Ok) ∧
    q.tokens.length = q.count.toNat

/-! ### The timbre bank and the FM register mapper -/

/-- 45_fm_register_mapper.md R291: `TBLOAD` silences, copies 3328 bytes, and marks every voice unprogrammed. -/
def Obligations.TbloadResult : Prop :=
  ∀ s : State, (s.x.get 0).toNat + 3328 ≤ 2 ^ 32 →
    ∃ bank : List Byte,
      exec .tbload s = .next { s with
        oplw := s.oplw ++
          (oplSlots.filter fun k => (s.ovoices.get k).active).map fun k => keyOffPair k (s.ovoices.get k)
        ovoices := Vector.ofFn fun k =>
          let o := s.ovoices.get k
          { o with active := false, keyon := if o.active then false else o.keyon, timbre := none }
        tb := bank, tbValid := true, res := 0, err := 0 } ∧
      bank.length = 3328 ∧
      ∀ (i : BitVec 8) (j : Nat), j < 13 →
        bank[13 * i.toNat + j]? = some (s.mem.read ((s.x.get 0).toNat + (13 * i.toNat + j)))

/-- 45_fm_register_mapper.md R295, R296, R294: `OVTIMBRE` emits the eleven writes in order and stores the levels. -/
def Obligations.OvtimbreResult : Prop :=
  ∀ (s : State) (vo : BitVec 4) (tim : BitVec 8) (k : Fin 9), k.val = vo.toNat → s.tbValid = true →
    let t (j : Nat) : Byte := s.tb.getD (13 * tim.toNat + j) 0
    let mo := s.cfg.modOff.getD k 0
    let co := mo + 3
    let lvl (b : Byte) : BitVec 6 := BitVec.ofNat 6 (63 - b.toNat % 64)
    let ksl (b : Byte) : BitVec 8 := b &&& 0xC0
    exec (.ovtimbre vo tim) s = .next { s with
      oplw := s.oplw ++ [
        (BitVec.ofNat 8 (0x40 + co), 0x3F),
        (BitVec.ofNat 8 (0x20 + mo), t 0), (BitVec.ofNat 8 (0x40 + mo), t 2), (BitVec.ofNat 8 (0x60 + mo), t 4),
        (BitVec.ofNat 8 (0x80 + mo), t 6), (BitVec.ofNat 8 (0xE0 + mo), t 8),
        (BitVec.ofNat 8 (0xC0 + k.val), t 10 &&& 0x0F),
        (BitVec.ofNat 8 (0x20 + co), t 1), (BitVec.ofNat 8 (0x60 + co), t 5), (BitVec.ofNat 8 (0x80 + co), t 7),
        (BitVec.ofNat 8 (0xE0 + co), t 9)]
      ovoices := s.ovoices.set k { s.ovoices.get k with
        lvlMod := lvl (t 2), kslMod := ksl (t 2), lvlCar := lvl (t 3), kslCar := ksl (t 3), timbre := some tim }
      res := 0, err := 0 }

/-- 45_fm_register_mapper.md R297, R298: `OVVOLUME` writes the carrier's level, and the modulator's when the connection is
additive. -/
def Obligations.OvvolumeResult : Prop :=
  ∀ (s : State) (vo : BitVec 4) (k : Fin 9) (tim : BitVec 8), k.val = vo.toNat → s.tbValid = true →
    (s.ovoices.get k).timbre = some tim →
    let o := s.ovoices.get k
    let t (j : Nat) : Byte := s.tb.getD (13 * tim.toNat + j) 0
    let mo := s.cfg.modOff.getD k 0
    let vel : Nat := (clamp (o.velocity.toNat + (t 12).toInt) 0 127).toNat
    let volume := (s.chans.get o.channel.toFin).volume.toNat
    let loud (lvl : BitVec 6) : Nat := lvl.toNat * (vel + 0x80) * volume / 2 ^ 15 * (s.musicVol.toNat + 1) / 2 ^ 8
    loud o.lvlCar ≤ 62 ∧ loud o.lvlMod ≤ 62 ∧
    exec (.ovvolume vo) s = .next { s with
      oplw := s.oplw ++ (BitVec.ofNat 8 (0x40 + (mo + 3)), BitVec.ofNat 8 (63 - loud o.lvlCar) ||| o.kslCar) ::
        (if (t 10).getLsbD 0 then [(BitVec.ofNat 8 (0x40 + mo), BitVec.ofNat 8 (63 - loud o.lvlMod) ||| o.kslMod)]
        else [])
      res := 0, err := 0 }

/-- 45_fm_register_mapper.md R299, R300: `OVPITCH` computes block and F-number, stores them and writes the two frequency
registers, the low one first. -/
def Obligations.OvpitchResult : Prop :=
  ∀ (s : State) (vo : BitVec 4) (k : Fin 9) (tim : BitVec 8), s.cfg.wf = true → k.val = vo.toNat → s.tbValid = true →
    (s.ovoices.get k).timbre = some tim →
    let o := s.ovoices.get k
    let c := s.chans.get o.channel.toFin
    let transpose := (s.tb.getD (13 * tim.toNat + 11) 0).toInt
    let note := (clamp ((if o.channel = 9 ∧ s.cfg.percBanked = true then transpose else o.key.toNat + transpose) +
      c.keyOffset.toInt) 0 95).toNat
    ∃ p : BitVec 13, p.toNat = note / 12 * 2 ^ 10 + s.cfg.fnum c.detune (note % 12) ∧
      exec (.ovpitch vo) s = .next { s with
        ovoices := s.ovoices.set k { o with pitch := p }
        oplw := s.oplw ++ pitchPairs k o.keyon p
        res := BitVec.ofNat 32 p.toNat, err := 0 }

/-- 45_fm_register_mapper.md R301: `SETMUSICVOL` stores the volume and rewrites the level of every active voice, in voice
order, at the new volume. -/
def Obligations.SetmusicvolResult : Prop :=
  ∀ (s : State) (imm8 : BitVec 8), (∀ k : Fin 9, (s.ovoices.get k).active = true → (s.ovoices.get k).timbre ≠ none) →
    let s' : State := { s with musicVol := imm8 }
    exec (.setmusicvol imm8) s = .next { s with
      musicVol := imm8
      oplw := s.oplw ++ oplSlots.flatMap fun k =>
        match (s.ovoices.get k).active, (s.ovoices.get k).timbre with
        | true, some tim => s'.volumeWrites k tim
        | _, _ => []
      res := 0, err := 0 }

/-! ### The OPL allocator and the channel events -/

/-- 44_opl_allocator.md R251, R253, R252, R254: what the two queries answer, and that the steal policy always answers. -/
def Obligations.OvfindAndOvallocResult : Prop :=
  ∀ (s : State) (ch : BitVec 4) (key : BitVec 7) (tim : BitVec 8),
    (∀ k, s.FirstOpl (OplVoice.Sounds ch key) k →
      exec (.ovfind ch key) s = .next { s with res := BitVec.ofNat 32 k, err := 0 }) ∧
    (s.NoOpl (OplVoice.Sounds ch key) → exec (.ovfind ch key) s = .next { s with res := 0xFFFFFFFF, err := 0 }) ∧
    (∃ k, s.OplChoice ch tim k) ∧
    ∀ k, s.OplChoice ch tim k → exec (.ovalloc ch tim) s = .next { s with res := BitVec.ofNat 32 k, err := 0 }

/-- 44_opl_allocator.md R258, R255: `NOTEOFF` releases the voice that sounds the note, or is ignored; and a `NOTEON` with
velocity 0 is the same (R257). -/
def Obligations.NoteoffResult : Prop :=
  ∀ (s : State) (ch : BitVec 4) (key vel : BitVec 7),
    (∀ k, s.FirstOpl (OplVoice.Sounds ch key) k →
      exec (.noteoff ch key vel) s = .next { s with
        ovoices := s.ovoices.set k { s.ovoices.get k with keyon := false, active := false }
        oplw := s.oplw ++ [keyOffPair k (s.ovoices.get k)], res := BitVec.ofNat 32 k, err := 0 }) ∧
    (s.NoOpl (OplVoice.Sounds ch key) →
      exec (.noteoff ch key vel) s = .next { s with res := 0xFFFFFFFF, err := 0 }) ∧
    exec (.noteon ch key 0) s = exec (.noteoff ch key vel) s

/-- 44_opl_allocator.md R257, R259: a `NOTEON` with a velocity re-finds or allocates a voice, releases it if it sounds,
programs it if its timbre differs, and starts the note: the writes are key-off, timbre, volume, pitch, in that order. -/
def Obligations.NoteonResult : Prop :=
  ∀ (s : State) (ch : BitVec 4) (key vel : BitVec 7) (k : Fin 9), vel ≠ 0 → s.tbValid = true →
    let tim : BitVec 8 :=
      if ch = 9 ∧ s.cfg.percBanked = true then BitVec.ofNat 8 (128 + key.toNat) else (s.chans.get ch.toFin).timbre
    s.FirstOpl (OplVoice.Sounds ch key) k ∨ (s.NoOpl (OplVoice.Sounds ch key) ∧ s.OplChoice ch tim k) →
    let o := s.ovoices.get k
    let t (j : Nat) : Byte := s.tb.getD (13 * tim.toNat + j) 0
    let claimed : OplVoice := { o with active := true, channel := ch, key := key, velocity := vel, keyon := true }
    let programmed : OplVoice := if o.timbre = some tim then claimed else { claimed with
      timbre := some tim
      lvlMod := BitVec.ofNat 6 (63 - (t 2).toNat % 64), kslMod := t 2 &&& 0xC0
      lvlCar := BitVec.ofNat 6 (63 - (t 3).toNat % 64), kslCar := t 3 &&& 0xC0 }
    let p := s.voicePitch programmed tim
    exec (.noteon ch key vel) s = .next { s with
      ovoices := s.ovoices.set k { programmed with pitch := p }
      oplw := s.oplw ++ (if o.active then [keyOffPair k o] else []) ++
        (if o.timbre = some tim then [] else s.timbreWrites k tim) ++
        State.volumeWrites { s with ovoices := s.ovoices.set k programmed } k tim ++ pitchPairs k true p
      res := BitVec.ofNat 32 k, err := 0 }

/-- 44_opl_allocator.md R268 (a): after a repeated `NOTEON` with no `NOTEOFF` between, exactly one voice sounds the note and
its velocity is the second one. -/
def Obligations.RepeatedNoteonUsesOneVoice : Prop :=
  ∀ (s t u : State) (ch : BitVec 4) (key v1 v2 : BitVec 7), v1 ≠ 0 → v2 ≠ 0 → s.tbValid = true →
    (∀ j k : Fin 9, OplVoice.Sounds ch key (s.ovoices.get j) → OplVoice.Sounds ch key (s.ovoices.get k) → j = k) →
    exec (.noteon ch key v1) s = .next t → exec (.noteon ch key v2) t = .next u →
    ∃ k : Fin 9, OplVoice.Sounds ch key (u.ovoices.get k) ∧ (u.ovoices.get k).velocity = v2 ∧ u.res = t.res ∧
      u.res = BitVec.ofNat 32 k ∧ ∀ j : Fin 9, OplVoice.Sounds ch key (u.ovoices.get j) → j = k

/-- 44_opl_allocator.md R260 to R263: controllers 7, 10, 123 and every other number, and the program change. -/
def Obligations.ControllerAndProgchangeResult : Prop :=
  ∀ (s : State) (ch : BitVec 4) (val : BitVec 7),
    let c := s.chans.get ch.toFin
    let sounding (k : Fin 9) : Bool := (s.ovoices.get k).active && (s.ovoices.get k).channel == ch
    let s7 : State := { s with chans := s.chans.set ch.toFin { c with volume := val } }
    ((∀ k : Fin 9, sounding k = true → (s.ovoices.get k).timbre ≠ none) →
      exec (.controller ch 7 val) s = .next { s7 with
        oplw := s.oplw ++ oplSlots.flatMap fun k =>
          match sounding k, (s.ovoices.get k).timbre with
          | true, some tim => s7.volumeWrites k tim
          | _, _ => []
        res := 0, err := 0 }) ∧
    exec (.controller ch 10 val) s = .next { s with
      chans := s.chans.set ch.toFin { c with pan := val }, res := 0, err := 0 } ∧
    exec (.controller ch 123 val) s = .next { s with
      ovoices := Vector.ofFn fun k =>
        if sounding k then { s.ovoices.get k with keyon := false, active := false } else s.ovoices.get k
      oplw := s.oplw ++ (oplSlots.filter sounding).map fun k => keyOffPair k (s.ovoices.get k)
      res := 0, err := 0 } ∧
    (∀ num, num ≠ 7 → num ≠ 10 → num ≠ 123 → exec (.controller ch num val) s = .next { s with res := 0, err := 0 }) ∧
    ∃ tim : BitVec 8, tim.toNat = val.toNat ∧
      exec (.progchange ch val) s = .next { s with
        chans := s.chans.set ch.toFin { c with timbre := tim }, res := 0, err := 0 }

/-- 44_opl_allocator.md R264: `PITCHBEND` stores the bend and what `BEND_MAP` gives for it, and rewrites the frequency of every
sounding note of the channel, in voice order. -/
def Obligations.PitchbendResult : Prop :=
  ∀ (s : State) (ch : BitVec 4) (lsb msb : BitVec 7),
    let sounding (k : Fin 9) : Bool := (s.ovoices.get k).active && (s.ovoices.get k).channel == ch
    (∀ k : Fin 9, sounding k = true → (s.ovoices.get k).timbre ≠ none) →
    ∃ bend : BitVec 14, bend.toNat = 2 ^ 7 * msb.toNat + lsb.toNat ∧
      let s' : State := { s with chans := s.chans.set ch.toFin { s.chans.get ch.toFin with
        bend := bend, keyOffset := (s.cfg.bendMap bend).keyOffset, detune := (s.cfg.bendMap bend).detune } }
      exec (.pitchbend ch lsb msb) s = .next { s' with
        ovoices := Vector.ofFn fun k =>
          match sounding k, (s.ovoices.get k).timbre with
          | true, some tim => { s.ovoices.get k with pitch := s'.voicePitch (s.ovoices.get k) tim }
          | _, _ => s.ovoices.get k
        oplw := s.oplw ++ oplSlots.flatMap fun k =>
          match sounding k, (s.ovoices.get k).timbre with
          | true, some tim => pitchPairs k (s.ovoices.get k).keyon (s'.voicePitch (s.ovoices.get k) tim)
          | _, _ => []
        res := 0, err := 0 }

/-- 44_opl_allocator.md R266: `OPLRESET` emits nine key-off writes and puts every voice and channel at its reset value. -/
def Obligations.OplresetResult : Prop :=
  ∀ s : State, ∃ (ov : Vector OplVoice 9) (ch : Vector Channel 16),
    exec .oplreset s = .next { s with
      ovoices := ov, chans := ch
      oplw := s.oplw ++ [(0xB0, 0), (0xB1, 0), (0xB2, 0), (0xB3, 0), (0xB4, 0), (0xB5, 0), (0xB6, 0), (0xB7, 0), (0xB8, 0)]
      res := 0, err := 0 } ∧
    (∀ k : Fin 9, ov.get k = {
      active := false, channel := 0, key := 0, velocity := 0, timbre := none, keyon := false, pitch := 0
      lvlMod := 0, lvlCar := 0, kslMod := 0, kslCar := 0 }) ∧
    ∀ n : Fin 16, ch.get n = {
      timbre := 0, volume := s.cfg.chvolReset, bend := 8192, pan := 64, keyOffset := BitVec.ofInt 8 (-12), detune := 0 }

/-- 44_opl_allocator.md R267: `OPLALLOFF` releases every sounding voice, in voice order, and counts them. -/
def Obligations.OplalloffResult : Prop :=
  ∀ s : State,
    let active := oplSlots.filter fun k => (s.ovoices.get k).active
    exec .oplalloff s = .next { s with
      ovoices := Vector.ofFn fun k =>
        if (s.ovoices.get k).active then { s.ovoices.get k with keyon := false, active := false } else s.ovoices.get k
      oplw := s.oplw ++ active.map fun k => keyOffPair k (s.ovoices.get k)
      res := BitVec.ofNat 32 active.length, err := 0 }
end

