-- ==== Sys2Proof/Laws/Decode.lean ====
section
/-! SUPPORT. Decoding and encoding (30_encoding.md): what the decoder answers, and how masks act on packed words. -/

namespace Sys2Proof

/-- A decoded command is what a matching row builds (30_encoding.md R112). -/
theorem decode_ok {w : Word} {i : Instr} (h : decode w = .ok i) :
    ∃ r ∈ opcodeTable, r.matches w = true ∧ i = r.build w := by
  unfold decode at h
  split at h
  · rename_i r hr
    cases h
    exact ⟨r, List.mem_of_find?_eq_some hr, List.find?_some (p := fun r : OpRow => r.matches w) hr, rfl⟩
  · cases h

/-- A word that does not decode matches no row (30_encoding.md R113). -/
theorem decode_error {w : Word} {e : DecodeError} (h : decode w = .error e) :
    ∀ r ∈ opcodeTable, r.matches w = false := by
  unfold decode at h
  split at h
  · cases h
  · rename_i hn
    intro r hr
    simpa using List.find?_eq_none.1 hn r hr

/-- A word that matches a row decodes (30_encoding.md R112). -/
theorem decode_isOk {w : Word} {r : OpRow} (hr : r ∈ opcodeTable) (hm : r.matches w = true) : ∃ i, decode w = .ok i := by
  unfold decode
  split
  · exact ⟨_, rfl⟩
  · rename_i hn
    exact absurd hm (List.find?_eq_none.1 hn r hr)

/-- A word that matches no row does not decode (30_encoding.md R113). -/
theorem decode_isError {w : Word} (h : ∀ r ∈ opcodeTable, r.matches w = false) : ∃ e, decode w = .error e := by
  unfold decode
  split
  · rename_i r hr
    have := h r (List.mem_of_find?_eq_some hr)
    rw [List.find?_some (p := fun r : OpRow => r.matches w) hr] at this
    cases this
  · exact ⟨_, rfl⟩

/-- A mask acts byte by byte (30_encoding.md R101). -/
theorem packFields_and (a b c d a' b' c' d' : BitVec 8) :
    packFields a b c d &&& packFields a' b' c' d' = packFields (a &&& a') (b &&& b') (c &&& c') (d &&& d') := by
  unfold packFields
  rw [BitVec.and_append, BitVec.and_append, BitVec.and_append]

/-- A row given byte by byte matches a word given byte by byte when each byte does. -/
theorem matches_packFields (n : String) (b : Word → Instr) (v1 v2 v3 v4 m1 m2 m3 m4 w1 w2 w3 w4 : BitVec 8)
    (h1 : w1 &&& m1 = v1) (h2 : w2 &&& m2 = v2) (h3 : w3 &&& m3 = v3) (h4 : w4 &&& m4 = v4) :
    OpRow.matches ⟨n, packFields v1 v2 v3 v4, packFields m1 m2 m3 m4, b⟩ (packFields w1 w2 w3 w4) = true := by
  unfold OpRow.matches
  simp only [packFields_and, h1, h2, h3, h4, beq_self_eq_true]

/-- The wide immediate of format I8 leaves no must-be-zero bit. -/
theorem and_zero_mask (x : BitVec 8) : x &&& 0x00 = 0 := by simp

/-- A 4-bit field in the low half of its byte (30_encoding.md R102). -/
theorem nibble_high_zero (x : BitVec 4) : (0#4 ++ x : BitVec 8) &&& 0xF0 = 0 := by revert x; decide

/-- A 7-bit field in its byte (30_encoding.md R102). -/
theorem septet_high_zero (x : BitVec 7) : (0#1 ++ x : BitVec 8) &&& 0x80 = 0 := by revert x; decide

/-- A 1-bit field in its byte (30_encoding.md R102). -/
theorem bit_high_zero (x : Bool) : (0#7 ++ BitVec.ofBool x : BitVec 8) &&& 0xFE = 0 := by revert x; decide

/-- A MIDI status byte keeps its kind under the row's mask (30_encoding.md R107). -/
theorem status_kind (kind ch : BitVec 4) : (kind ++ ch : BitVec 8) &&& 0xF0 = kind ++ 0#4 := by
  revert kind ch; decide

end Sys2Proof
end

