-- ==== Sys2Proof/Laws/Memory.lean ====
section
/-! SUPPORT. MEM (20_memory.md R72): what a byte reads as after a write, and that every operation over MEM keeps the canonical
form `Memory.wf`. -/

namespace Sys2Proof.Machine

/-- An address that no entry names reads as unlisted. -/
theorem Memory.read_eq_unlisted {m : Memory} {a : Nat} (h : ∀ e ∈ m, e.1 ≠ a) : m.read a = Memory.unlisted a := by
  induction m with
  | nil => rfl
  | cons e m ih =>
    have h1 : a ≠ e.1 := fun he => h e (by simp) he.symm
    simp only [Memory.read, if_neg h1]
    exact ih fun f hf => h f (by simp [hf])

/-- The empty memory has the canonical form. -/
theorem Memory.wf_nil : Memory.wf [] := by simp [Memory.wf]

/-- The rest of a canonical memory is canonical. -/
theorem Memory.wf_tail {e : Host.Cell} {m : Memory} (h : Memory.wf (e :: m)) : Memory.wf m :=
  ⟨(List.pairwise_cons.1 h.1).2, fun f hf => h.2 f (by simp [hf])⟩

/-- In a canonical memory every later address is above the first. -/
theorem Memory.wf_head_lt {e : Host.Cell} {m : Memory} (h : Memory.wf (e :: m)) : ∀ f ∈ m, e.1 < f.1 :=
  (List.pairwise_cons.1 h.1).1

/-- A byte reads as the one just written at its address, and as before elsewhere (20_memory.md R72, R84). -/
theorem Memory.read_write (m : Memory) (a a' : Nat) (b : Byte) :
    (m.write a b).read a' = if a' = a then b else m.read a' := by
  induction m with
  | nil => rfl
  | cons e m ih =>
    obtain ⟨k, c⟩ := e
    by_cases h1 : a < k
    · simp only [Memory.write, if_pos h1, Memory.read]
    · by_cases h2 : a = k
      · subst h2
        simp only [Memory.write, Nat.lt_irrefl, if_false, if_true, Memory.read]
        split <;> rfl
      · simp only [Memory.write, if_neg h1, if_neg h2, Memory.read, ih]
        split
        · rename_i h3; rw [if_neg (h3 ▸ Ne.symm h2)]
        · rfl

/-- A byte just written reads back (20_memory.md R72). -/
theorem Memory.read_write_same (m : Memory) (a : Nat) (b : Byte) : (m.write a b).read a = b := by
  rw [Memory.read_write, if_pos rfl]

/-- A write leaves every other byte alone (20_memory.md R72). -/
theorem Memory.read_write_other (m : Memory) {a a' : Nat} (b : Byte) (h : a' ≠ a) :
    (m.write a b).read a' = m.read a' := by
  rw [Memory.read_write, if_neg h]

/-- Every entry after a write was there before or is the written one. -/
theorem Memory.mem_write {m : Memory} {a : Nat} {b : Byte} {e : Host.Cell} (h : e ∈ m.write a b) : e ∈ m ∨ e = (a, b) := by
  induction m with
  | nil => exact .inr (List.mem_singleton.1 h)
  | cons f m ih =>
    obtain ⟨k, c⟩ := f
    unfold Memory.write at h
    split at h
    · exact (List.mem_cons.1 h).symm.imp id id
    · split at h
      · exact (List.mem_cons.1 h).symm.imp (List.mem_cons_of_mem _) id
      · rcases List.mem_cons.1 h with rfl | h
        · exact .inl (by simp)
        · exact (ih h).imp (List.mem_cons_of_mem _) id

/-- A write inside the address space keeps the canonical form. -/
theorem Memory.write_wf {m : Memory} (h : m.wf) {a : Nat} (ha : a < 2 ^ 32) (b : Byte) : (m.write a b).wf := by
  refine ⟨?_, fun e he => ?_⟩
  · induction m with
    | nil => simp [Memory.write]
    | cons f m ih =>
      obtain ⟨k, c⟩ := f
      have hlt := Memory.wf_head_lt h
      unfold Memory.write
      split
      · rename_i h1
        refine List.pairwise_cons.2 ⟨fun f hf => ?_, h.1⟩
        rcases List.mem_cons.1 hf with rfl | hf
        · exact h1
        · exact Nat.lt_trans h1 (hlt f hf)
      · split
        · rename_i h2
          subst h2
          exact List.pairwise_cons.2 ⟨hlt, (Memory.wf_tail h).1⟩
        · rename_i h1 h2
          refine List.pairwise_cons.2 ⟨fun f hf => ?_, ih (Memory.wf_tail h)⟩
          rcases Memory.mem_write hf with hf | rfl
          · exact hlt f hf
          · exact Nat.lt_of_le_of_ne (Nat.not_lt.1 h1) (Ne.symm h2)
  · rcases Memory.mem_write he with he | rfl
    · exact h.2 e he
    · exact ha

/-- A 16-bit write keeps the canonical form. -/
theorem Memory.write16_wf {m : Memory} (h : m.wf) {a : Nat} (ha : a + 1 < 2 ^ 32) (v : BitVec 16) : (m.write16 a v).wf :=
  Memory.write_wf (Memory.write_wf h (by omega) _) ha _

/-- A 16-bit write leaves every byte but its two alone. -/
theorem Memory.read_write16_other (m : Memory) {a a' : Nat} (v : BitVec 16) (h : a' < a ∨ a + 2 ≤ a') :
    (m.write16 a v).read a' = m.read a' := by
  unfold Memory.write16
  rw [Memory.read_write_other _ _ (by omega), Memory.read_write_other _ _ (by omega)]

/-- A 16-bit value just written reads back (20_memory.md R76). -/
theorem Memory.read16_write16_same (m : Memory) (a : Nat) (v : BitVec 16) : (m.write16 a v).read16 a = v := by
  unfold Memory.read16 Memory.write16
  rw [Memory.read_write_same, Memory.read_write_other _ _ (by omega), Memory.read_write_same]
  ext i hi
  simp only [BitVec.getElem_append, BitVec.getElem_extractLsb']
  split
  · rw [Nat.zero_add, BitVec.getLsbD_eq_getElem]
  · rw [show 8 + (i - 8) = i by omega, BitVec.getLsbD_eq_getElem]

/-- A 16-bit read elsewhere is not changed by a 16-bit write. -/
theorem Memory.read16_write16_other (m : Memory) {a a' : Nat} (v : BitVec 16) (h : a' + 2 ≤ a ∨ a + 2 ≤ a') :
    (m.write16 a v).read16 a' = m.read16 a' := by
  unfold Memory.read16
  rw [Memory.read_write16_other _ _ (by omega), Memory.read_write16_other _ _ (by omega)]

/-- The silence fill (42_mixer.md R201) writes its `2 * n` bytes only. -/
theorem silenceFill_read_other (n : Nat) : ∀ (m : Memory) (a a' : Nat), a' < a ∨ a + 2 * n ≤ a' →
    (silenceFill m a n).read a' = m.read a' := by
  induction n with
  | zero => intro m a a' _; rfl
  | succ n ih =>
    intro m a a' h
    simp only [silenceFill]
    rw [ih _ _ _ (by omega), Memory.read_write16_other _ _ (by omega)]

/-- The silence fill keeps the canonical form. -/
theorem silenceFill_wf (n : Nat) : ∀ (m : Memory) (a : Nat), m.wf → a + 2 * n ≤ 2 ^ 32 → (silenceFill m a n).wf := by
  induction n with
  | zero => intro m a h _; exact h
  | succ n ih =>
    intro m a h ha
    exact ih _ _ (Memory.write16_wf h (by omega) 0) (by omega)

/-- Accumulating one channel (42_mixer.md R205) writes its two bytes only. -/
theorem accumulate_read_other (m : Memory) {a a' : Nat} (c : Int) (h : a' < a ∨ a + 2 ≤ a') :
    (accumulate m a c).read a' = m.read a' := Memory.read_write16_other _ _ h

/-- Accumulating keeps the canonical form. -/
theorem accumulate_wf {m : Memory} (h : m.wf) {a : Nat} (ha : a + 1 < 2 ^ 32) (c : Int) : (accumulate m a c).wf :=
  Memory.write16_wf h ha _

/-- One frame of one voice (42_mixer.md R205) writes its four bytes only. -/
theorem State.mixFrameMem_read_other (s : State) (g : Nat × Nat) {a a' : Nat} (v : Voice) (m : Memory)
    (h : a' < a ∨ a + 4 ≤ a') : (s.mixFrameMem g a v m).read a' = m.read a' := by
  unfold State.mixFrameMem
  rw [accumulate_read_other _ _ (by omega), accumulate_read_other _ _ (by omega)]

/-- One frame of one voice keeps the canonical form. -/
theorem State.mixFrameMem_wf (s : State) (g : Nat × Nat) {a : Nat} (v : Voice) {m : Memory} (h : m.wf)
    (ha : a + 4 ≤ 2 ^ 32) : (s.mixFrameMem g a v m).wf :=
  accumulate_wf (accumulate_wf h (by omega) _) (by omega) _

/-- Reading `n` bytes gives `n` bytes. -/
@[simp] theorem Memory.readBytes_length (m : Memory) : ∀ (n a : Nat), (m.readBytes a n).length = n
  | 0, _ => rfl
  | n + 1, a => by simp [Memory.readBytes, Memory.readBytes_length m n]

/-- Byte `j` of `n` bytes read from `a`. -/
theorem Memory.readBytes_getElem (m : Memory) : ∀ (n a j : Nat) (h : j < (m.readBytes a n).length),
    (m.readBytes a n)[j] = m.read (a + j)
  | 0, _, _, h => by simp [Memory.readBytes] at h
  | n + 1, a, 0, _ => rfl
  | n + 1, a, j + 1, h => by
    simp only [Memory.readBytes, List.getElem_cons_succ]
    rw [Memory.readBytes_getElem m n (a + 1) j]
    congr 1; omega

end Sys2Proof.Machine
end

