-- ==== Sys2Proof/Laws/State.lean ====
section
/-! SUPPORT. One lemma per field per named update of State, each true by rfl, so that no proof unfolds a record update. -/

namespace Sys2Proof.Machine

/-! ### `complete` (00_scope.md R15) -/

@[simp] theorem State.complete_x (s : State) (r : Word) : (s.complete r).x = s.x := rfl
@[simp] theorem State.complete_res (s : State) (r : Word) : (s.complete r).res = r := rfl
@[simp] theorem State.complete_busy (s : State) (r : Word) : (s.complete r).busy = s.busy := rfl
@[simp] theorem State.complete_err (s : State) (r : Word) : (s.complete r).err = 0 := rfl
@[simp] theorem State.complete_errflags (s : State) (r : Word) : (s.complete r).errflags = s.errflags := rfl
@[simp] theorem State.complete_revStereo (s : State) (r : Word) : (s.complete r).revStereo = s.revStereo := rfl
@[simp] theorem State.complete_lpfEn (s : State) (r : Word) : (s.complete r).lpfEn = s.lpfEn := rfl
@[simp] theorem State.complete_musicGen (s : State) (r : Word) : (s.complete r).musicGen = s.musicGen := rfl
@[simp] theorem State.complete_masterVol (s : State) (r : Word) : (s.complete r).masterVol = s.masterVol := rfl
@[simp] theorem State.complete_musicVol (s : State) (r : Word) : (s.complete r).musicVol = s.musicVol := rfl
@[simp] theorem State.complete_alpha (s : State) (r : Word) : (s.complete r).alpha = s.alpha := rfl
@[simp] theorem State.complete_beta (s : State) (r : Word) : (s.complete r).beta = s.beta := rfl
@[simp] theorem State.complete_gen (s : State) (r : Word) : (s.complete r).gen = s.gen := rfl
@[simp] theorem State.complete_voices (s : State) (r : Word) : (s.complete r).voices = s.voices := rfl
@[simp] theorem State.complete_cbq (s : State) (r : Word) : (s.complete r).cbq = s.cbq := rfl
@[simp] theorem State.complete_draining (s : State) (r : Word) : (s.complete r).draining = s.draining := rfl
@[simp] theorem State.complete_drainLeft (s : State) (r : Word) : (s.complete r).drainLeft = s.drainLeft := rfl
@[simp] theorem State.complete_cbValid (s : State) (r : Word) : (s.complete r).cbValid = s.cbValid := rfl
@[simp] theorem State.complete_cbToken (s : State) (r : Word) : (s.complete r).cbToken = s.cbToken := rfl
@[simp] theorem State.complete_ovoices (s : State) (r : Word) : (s.complete r).ovoices = s.ovoices := rfl
@[simp] theorem State.complete_chans (s : State) (r : Word) : (s.complete r).chans = s.chans := rfl
@[simp] theorem State.complete_tb (s : State) (r : Word) : (s.complete r).tb = s.tb := rfl
@[simp] theorem State.complete_tbValid (s : State) (r : Word) : (s.complete r).tbValid = s.tbValid := rfl
@[simp] theorem State.complete_oplw (s : State) (r : Word) : (s.complete r).oplw = s.oplw := rfl
@[simp] theorem State.complete_cbout (s : State) (r : Word) : (s.complete r).cbout = s.cbout := rfl
@[simp] theorem State.complete_mem (s : State) (r : Word) : (s.complete r).mem = s.mem := rfl
@[simp] theorem State.complete_cfg (s : State) (r : Word) : (s.complete r).cfg = s.cfg := rfl
@[simp] theorem State.complete_hostq (s : State) (r : Word) : (s.complete r).hostq = s.hostq := rfl
@[simp] theorem State.complete_hostData (s : State) (r : Word) : (s.complete r).hostData = s.hostData := rfl
@[simp] theorem State.complete_freeCtr (s : State) (r : Word) : (s.complete r).freeCtr = s.freeCtr := rfl

/-! ### `fail` (00_scope.md R15) -/

@[simp] theorem State.fail_x (s : State) (e : Failure) : (s.fail e).x = s.x := rfl
@[simp] theorem State.fail_res (s : State) (e : Failure) : (s.fail e).res = 0 := rfl
@[simp] theorem State.fail_busy (s : State) (e : Failure) : (s.fail e).busy = s.busy := rfl
@[simp] theorem State.fail_err (s : State) (e : Failure) : (s.fail e).err = e.code := rfl
@[simp] theorem State.fail_errflags (s : State) (e : Failure) : (s.fail e).errflags = raiseFlag e.flag s.errflags := rfl
@[simp] theorem State.fail_revStereo (s : State) (e : Failure) : (s.fail e).revStereo = s.revStereo := rfl
@[simp] theorem State.fail_lpfEn (s : State) (e : Failure) : (s.fail e).lpfEn = s.lpfEn := rfl
@[simp] theorem State.fail_musicGen (s : State) (e : Failure) : (s.fail e).musicGen = s.musicGen := rfl
@[simp] theorem State.fail_masterVol (s : State) (e : Failure) : (s.fail e).masterVol = s.masterVol := rfl
@[simp] theorem State.fail_musicVol (s : State) (e : Failure) : (s.fail e).musicVol = s.musicVol := rfl
@[simp] theorem State.fail_alpha (s : State) (e : Failure) : (s.fail e).alpha = s.alpha := rfl
@[simp] theorem State.fail_beta (s : State) (e : Failure) : (s.fail e).beta = s.beta := rfl
@[simp] theorem State.fail_gen (s : State) (e : Failure) : (s.fail e).gen = s.gen := rfl
@[simp] theorem State.fail_voices (s : State) (e : Failure) : (s.fail e).voices = s.voices := rfl
@[simp] theorem State.fail_cbq (s : State) (e : Failure) : (s.fail e).cbq = s.cbq := rfl
@[simp] theorem State.fail_draining (s : State) (e : Failure) : (s.fail e).draining = s.draining := rfl
@[simp] theorem State.fail_drainLeft (s : State) (e : Failure) : (s.fail e).drainLeft = s.drainLeft := rfl
@[simp] theorem State.fail_cbValid (s : State) (e : Failure) : (s.fail e).cbValid = s.cbValid := rfl
@[simp] theorem State.fail_cbToken (s : State) (e : Failure) : (s.fail e).cbToken = s.cbToken := rfl
@[simp] theorem State.fail_ovoices (s : State) (e : Failure) : (s.fail e).ovoices = s.ovoices := rfl
@[simp] theorem State.fail_chans (s : State) (e : Failure) : (s.fail e).chans = s.chans := rfl
@[simp] theorem State.fail_tb (s : State) (e : Failure) : (s.fail e).tb = s.tb := rfl
@[simp] theorem State.fail_tbValid (s : State) (e : Failure) : (s.fail e).tbValid = s.tbValid := rfl
@[simp] theorem State.fail_oplw (s : State) (e : Failure) : (s.fail e).oplw = s.oplw := rfl
@[simp] theorem State.fail_cbout (s : State) (e : Failure) : (s.fail e).cbout = s.cbout := rfl
@[simp] theorem State.fail_mem (s : State) (e : Failure) : (s.fail e).mem = s.mem := rfl
@[simp] theorem State.fail_cfg (s : State) (e : Failure) : (s.fail e).cfg = s.cfg := rfl
@[simp] theorem State.fail_hostq (s : State) (e : Failure) : (s.fail e).hostq = s.hostq := rfl
@[simp] theorem State.fail_hostData (s : State) (e : Failure) : (s.fail e).hostData = s.hostData := rfl
@[simp] theorem State.fail_freeCtr (s : State) (e : Failure) : (s.fail e).freeCtr = s.freeCtr := rfl

/-! ### `flag` (00_scope.md R15) -/

@[simp] theorem State.flag_x (s : State) (f : Flag) : (s.flag f).x = s.x := rfl
@[simp] theorem State.flag_res (s : State) (f : Flag) : (s.flag f).res = s.res := rfl
@[simp] theorem State.flag_busy (s : State) (f : Flag) : (s.flag f).busy = s.busy := rfl
@[simp] theorem State.flag_err (s : State) (f : Flag) : (s.flag f).err = s.err := rfl
@[simp] theorem State.flag_errflags (s : State) (f : Flag) : (s.flag f).errflags = raiseFlag f s.errflags := rfl
@[simp] theorem State.flag_revStereo (s : State) (f : Flag) : (s.flag f).revStereo = s.revStereo := rfl
@[simp] theorem State.flag_lpfEn (s : State) (f : Flag) : (s.flag f).lpfEn = s.lpfEn := rfl
@[simp] theorem State.flag_musicGen (s : State) (f : Flag) : (s.flag f).musicGen = s.musicGen := rfl
@[simp] theorem State.flag_masterVol (s : State) (f : Flag) : (s.flag f).masterVol = s.masterVol := rfl
@[simp] theorem State.flag_musicVol (s : State) (f : Flag) : (s.flag f).musicVol = s.musicVol := rfl
@[simp] theorem State.flag_alpha (s : State) (f : Flag) : (s.flag f).alpha = s.alpha := rfl
@[simp] theorem State.flag_beta (s : State) (f : Flag) : (s.flag f).beta = s.beta := rfl
@[simp] theorem State.flag_gen (s : State) (f : Flag) : (s.flag f).gen = s.gen := rfl
@[simp] theorem State.flag_voices (s : State) (f : Flag) : (s.flag f).voices = s.voices := rfl
@[simp] theorem State.flag_cbq (s : State) (f : Flag) : (s.flag f).cbq = s.cbq := rfl
@[simp] theorem State.flag_draining (s : State) (f : Flag) : (s.flag f).draining = s.draining := rfl
@[simp] theorem State.flag_drainLeft (s : State) (f : Flag) : (s.flag f).drainLeft = s.drainLeft := rfl
@[simp] theorem State.flag_cbValid (s : State) (f : Flag) : (s.flag f).cbValid = s.cbValid := rfl
@[simp] theorem State.flag_cbToken (s : State) (f : Flag) : (s.flag f).cbToken = s.cbToken := rfl
@[simp] theorem State.flag_ovoices (s : State) (f : Flag) : (s.flag f).ovoices = s.ovoices := rfl
@[simp] theorem State.flag_chans (s : State) (f : Flag) : (s.flag f).chans = s.chans := rfl
@[simp] theorem State.flag_tb (s : State) (f : Flag) : (s.flag f).tb = s.tb := rfl
@[simp] theorem State.flag_tbValid (s : State) (f : Flag) : (s.flag f).tbValid = s.tbValid := rfl
@[simp] theorem State.flag_oplw (s : State) (f : Flag) : (s.flag f).oplw = s.oplw := rfl
@[simp] theorem State.flag_cbout (s : State) (f : Flag) : (s.flag f).cbout = s.cbout := rfl
@[simp] theorem State.flag_mem (s : State) (f : Flag) : (s.flag f).mem = s.mem := rfl
@[simp] theorem State.flag_cfg (s : State) (f : Flag) : (s.flag f).cfg = s.cfg := rfl
@[simp] theorem State.flag_hostq (s : State) (f : Flag) : (s.flag f).hostq = s.hostq := rfl
@[simp] theorem State.flag_hostData (s : State) (f : Flag) : (s.flag f).hostData = s.hostData := rfl
@[simp] theorem State.flag_freeCtr (s : State) (f : Flag) : (s.flag f).freeCtr = s.freeCtr := rfl

/-! ### `enqueue` (43_callback_queue.md R231) -/

@[simp] theorem State.enqueue_x (s : State) (t : Word) : (s.enqueue t).x = s.x := rfl
@[simp] theorem State.enqueue_res (s : State) (t : Word) : (s.enqueue t).res = s.res := rfl
@[simp] theorem State.enqueue_busy (s : State) (t : Word) : (s.enqueue t).busy = s.busy := rfl
@[simp] theorem State.enqueue_err (s : State) (t : Word) : (s.enqueue t).err = s.err := rfl
@[simp] theorem State.enqueue_errflags (s : State) (t : Word) : (s.enqueue t).errflags = enqueueFlags s.cbq s.errflags := rfl
@[simp] theorem State.enqueue_revStereo (s : State) (t : Word) : (s.enqueue t).revStereo = s.revStereo := rfl
@[simp] theorem State.enqueue_lpfEn (s : State) (t : Word) : (s.enqueue t).lpfEn = s.lpfEn := rfl
@[simp] theorem State.enqueue_musicGen (s : State) (t : Word) : (s.enqueue t).musicGen = s.musicGen := rfl
@[simp] theorem State.enqueue_masterVol (s : State) (t : Word) : (s.enqueue t).masterVol = s.masterVol := rfl
@[simp] theorem State.enqueue_musicVol (s : State) (t : Word) : (s.enqueue t).musicVol = s.musicVol := rfl
@[simp] theorem State.enqueue_alpha (s : State) (t : Word) : (s.enqueue t).alpha = s.alpha := rfl
@[simp] theorem State.enqueue_beta (s : State) (t : Word) : (s.enqueue t).beta = s.beta := rfl
@[simp] theorem State.enqueue_gen (s : State) (t : Word) : (s.enqueue t).gen = s.gen := rfl
@[simp] theorem State.enqueue_voices (s : State) (t : Word) : (s.enqueue t).voices = s.voices := rfl
@[simp] theorem State.enqueue_cbq (s : State) (t : Word) : (s.enqueue t).cbq = s.cbq.enqueue t := rfl
@[simp] theorem State.enqueue_draining (s : State) (t : Word) : (s.enqueue t).draining = s.draining := rfl
@[simp] theorem State.enqueue_drainLeft (s : State) (t : Word) : (s.enqueue t).drainLeft = s.drainLeft := rfl
@[simp] theorem State.enqueue_cbValid (s : State) (t : Word) : (s.enqueue t).cbValid = s.cbValid := rfl
@[simp] theorem State.enqueue_cbToken (s : State) (t : Word) : (s.enqueue t).cbToken = s.cbToken := rfl
@[simp] theorem State.enqueue_ovoices (s : State) (t : Word) : (s.enqueue t).ovoices = s.ovoices := rfl
@[simp] theorem State.enqueue_chans (s : State) (t : Word) : (s.enqueue t).chans = s.chans := rfl
@[simp] theorem State.enqueue_tb (s : State) (t : Word) : (s.enqueue t).tb = s.tb := rfl
@[simp] theorem State.enqueue_tbValid (s : State) (t : Word) : (s.enqueue t).tbValid = s.tbValid := rfl
@[simp] theorem State.enqueue_oplw (s : State) (t : Word) : (s.enqueue t).oplw = s.oplw := rfl
@[simp] theorem State.enqueue_cbout (s : State) (t : Word) : (s.enqueue t).cbout = s.cbout := rfl
@[simp] theorem State.enqueue_mem (s : State) (t : Word) : (s.enqueue t).mem = s.mem := rfl
@[simp] theorem State.enqueue_cfg (s : State) (t : Word) : (s.enqueue t).cfg = s.cfg := rfl
@[simp] theorem State.enqueue_hostq (s : State) (t : Word) : (s.enqueue t).hostq = s.hostq := rfl
@[simp] theorem State.enqueue_hostData (s : State) (t : Word) : (s.enqueue t).hostData = s.hostData := rfl
@[simp] theorem State.enqueue_freeCtr (s : State) (t : Word) : (s.enqueue t).freeCtr = s.freeCtr := rfl

/-! ### `CbDeliver` (43_callback_queue.md R236) -/

@[simp] theorem State.cbDeliver_x (s : State) (t : Word) : (s.cbDeliver t).x = s.x := rfl
@[simp] theorem State.cbDeliver_res (s : State) (t : Word) : (s.cbDeliver t).res = s.res := rfl
@[simp] theorem State.cbDeliver_busy (s : State) (t : Word) : (s.cbDeliver t).busy = s.busy := rfl
@[simp] theorem State.cbDeliver_err (s : State) (t : Word) : (s.cbDeliver t).err = s.err := rfl
@[simp] theorem State.cbDeliver_errflags (s : State) (t : Word) : (s.cbDeliver t).errflags = s.errflags := rfl
@[simp] theorem State.cbDeliver_revStereo (s : State) (t : Word) : (s.cbDeliver t).revStereo = s.revStereo := rfl
@[simp] theorem State.cbDeliver_lpfEn (s : State) (t : Word) : (s.cbDeliver t).lpfEn = s.lpfEn := rfl
@[simp] theorem State.cbDeliver_musicGen (s : State) (t : Word) : (s.cbDeliver t).musicGen = s.musicGen := rfl
@[simp] theorem State.cbDeliver_masterVol (s : State) (t : Word) : (s.cbDeliver t).masterVol = s.masterVol := rfl
@[simp] theorem State.cbDeliver_musicVol (s : State) (t : Word) : (s.cbDeliver t).musicVol = s.musicVol := rfl
@[simp] theorem State.cbDeliver_alpha (s : State) (t : Word) : (s.cbDeliver t).alpha = s.alpha := rfl
@[simp] theorem State.cbDeliver_beta (s : State) (t : Word) : (s.cbDeliver t).beta = s.beta := rfl
@[simp] theorem State.cbDeliver_gen (s : State) (t : Word) : (s.cbDeliver t).gen = s.gen := rfl
@[simp] theorem State.cbDeliver_voices (s : State) (t : Word) : (s.cbDeliver t).voices = s.voices := rfl
@[simp] theorem State.cbDeliver_cbq (s : State) (t : Word) : (s.cbDeliver t).cbq = s.cbq := rfl
@[simp] theorem State.cbDeliver_draining (s : State) (t : Word) : (s.cbDeliver t).draining = s.draining := rfl
@[simp] theorem State.cbDeliver_drainLeft (s : State) (t : Word) : (s.cbDeliver t).drainLeft = s.drainLeft := rfl
@[simp] theorem State.cbDeliver_cbValid (s : State) (t : Word) : (s.cbDeliver t).cbValid = true := rfl
@[simp] theorem State.cbDeliver_cbToken (s : State) (t : Word) : (s.cbDeliver t).cbToken = t := rfl
@[simp] theorem State.cbDeliver_ovoices (s : State) (t : Word) : (s.cbDeliver t).ovoices = s.ovoices := rfl
@[simp] theorem State.cbDeliver_chans (s : State) (t : Word) : (s.cbDeliver t).chans = s.chans := rfl
@[simp] theorem State.cbDeliver_tb (s : State) (t : Word) : (s.cbDeliver t).tb = s.tb := rfl
@[simp] theorem State.cbDeliver_tbValid (s : State) (t : Word) : (s.cbDeliver t).tbValid = s.tbValid := rfl
@[simp] theorem State.cbDeliver_oplw (s : State) (t : Word) : (s.cbDeliver t).oplw = s.oplw := rfl
@[simp] theorem State.cbDeliver_cbout (s : State) (t : Word) : (s.cbDeliver t).cbout = s.cbout ++ [t] := rfl
@[simp] theorem State.cbDeliver_mem (s : State) (t : Word) : (s.cbDeliver t).mem = s.mem := rfl
@[simp] theorem State.cbDeliver_cfg (s : State) (t : Word) : (s.cbDeliver t).cfg = s.cfg := rfl
@[simp] theorem State.cbDeliver_hostq (s : State) (t : Word) : (s.cbDeliver t).hostq = s.hostq := rfl
@[simp] theorem State.cbDeliver_hostData (s : State) (t : Word) : (s.cbDeliver t).hostData = s.hostData := rfl
@[simp] theorem State.cbDeliver_freeCtr (s : State) (t : Word) : (s.cbDeliver t).freeCtr = s.freeCtr := rfl

/-! ### `OplWrite` (20_memory.md R74) -/

@[simp] theorem State.oplWrite_x (s : State) (reg val : Byte) : (s.oplWrite reg val).x = s.x := rfl
@[simp] theorem State.oplWrite_res (s : State) (reg val : Byte) : (s.oplWrite reg val).res = s.res := rfl
@[simp] theorem State.oplWrite_busy (s : State) (reg val : Byte) : (s.oplWrite reg val).busy = s.busy := rfl
@[simp] theorem State.oplWrite_err (s : State) (reg val : Byte) : (s.oplWrite reg val).err = s.err := rfl
@[simp] theorem State.oplWrite_errflags (s : State) (reg val : Byte) : (s.oplWrite reg val).errflags = s.errflags := rfl
@[simp] theorem State.oplWrite_revStereo (s : State) (reg val : Byte) : (s.oplWrite reg val).revStereo = s.revStereo := rfl
@[simp] theorem State.oplWrite_lpfEn (s : State) (reg val : Byte) : (s.oplWrite reg val).lpfEn = s.lpfEn := rfl
@[simp] theorem State.oplWrite_musicGen (s : State) (reg val : Byte) : (s.oplWrite reg val).musicGen = s.musicGen := rfl
@[simp] theorem State.oplWrite_masterVol (s : State) (reg val : Byte) : (s.oplWrite reg val).masterVol = s.masterVol := rfl
@[simp] theorem State.oplWrite_musicVol (s : State) (reg val : Byte) : (s.oplWrite reg val).musicVol = s.musicVol := rfl
@[simp] theorem State.oplWrite_alpha (s : State) (reg val : Byte) : (s.oplWrite reg val).alpha = s.alpha := rfl
@[simp] theorem State.oplWrite_beta (s : State) (reg val : Byte) : (s.oplWrite reg val).beta = s.beta := rfl
@[simp] theorem State.oplWrite_gen (s : State) (reg val : Byte) : (s.oplWrite reg val).gen = s.gen := rfl
@[simp] theorem State.oplWrite_voices (s : State) (reg val : Byte) : (s.oplWrite reg val).voices = s.voices := rfl
@[simp] theorem State.oplWrite_cbq (s : State) (reg val : Byte) : (s.oplWrite reg val).cbq = s.cbq := rfl
@[simp] theorem State.oplWrite_draining (s : State) (reg val : Byte) : (s.oplWrite reg val).draining = s.draining := rfl
@[simp] theorem State.oplWrite_drainLeft (s : State) (reg val : Byte) : (s.oplWrite reg val).drainLeft = s.drainLeft := rfl
@[simp] theorem State.oplWrite_cbValid (s : State) (reg val : Byte) : (s.oplWrite reg val).cbValid = s.cbValid := rfl
@[simp] theorem State.oplWrite_cbToken (s : State) (reg val : Byte) : (s.oplWrite reg val).cbToken = s.cbToken := rfl
@[simp] theorem State.oplWrite_ovoices (s : State) (reg val : Byte) : (s.oplWrite reg val).ovoices = s.ovoices := rfl
@[simp] theorem State.oplWrite_chans (s : State) (reg val : Byte) : (s.oplWrite reg val).chans = s.chans := rfl
@[simp] theorem State.oplWrite_tb (s : State) (reg val : Byte) : (s.oplWrite reg val).tb = s.tb := rfl
@[simp] theorem State.oplWrite_tbValid (s : State) (reg val : Byte) : (s.oplWrite reg val).tbValid = s.tbValid := rfl
@[simp] theorem State.oplWrite_oplw (s : State) (reg val : Byte) : (s.oplWrite reg val).oplw = s.oplw ++ [(reg, val)] := rfl
@[simp] theorem State.oplWrite_cbout (s : State) (reg val : Byte) : (s.oplWrite reg val).cbout = s.cbout := rfl
@[simp] theorem State.oplWrite_mem (s : State) (reg val : Byte) : (s.oplWrite reg val).mem = s.mem := rfl
@[simp] theorem State.oplWrite_cfg (s : State) (reg val : Byte) : (s.oplWrite reg val).cfg = s.cfg := rfl
@[simp] theorem State.oplWrite_hostq (s : State) (reg val : Byte) : (s.oplWrite reg val).hostq = s.hostq := rfl
@[simp] theorem State.oplWrite_hostData (s : State) (reg val : Byte) : (s.oplWrite reg val).hostData = s.hostData := rfl
@[simp] theorem State.oplWrite_freeCtr (s : State) (reg val : Byte) : (s.oplWrite reg val).freeCtr = s.freeCtr := rfl

/-! ### writing an OPL voice (10_state.md R42) -/

@[simp] theorem State.setOvoice_x (s : State) (k : Fin 9) (o : OplVoice) : (s.setOvoice k o).x = s.x := rfl
@[simp] theorem State.setOvoice_res (s : State) (k : Fin 9) (o : OplVoice) : (s.setOvoice k o).res = s.res := rfl
@[simp] theorem State.setOvoice_busy (s : State) (k : Fin 9) (o : OplVoice) : (s.setOvoice k o).busy = s.busy := rfl
@[simp] theorem State.setOvoice_err (s : State) (k : Fin 9) (o : OplVoice) : (s.setOvoice k o).err = s.err := rfl
@[simp] theorem State.setOvoice_errflags (s : State) (k : Fin 9) (o : OplVoice) : (s.setOvoice k o).errflags = s.errflags := rfl
@[simp] theorem State.setOvoice_revStereo (s : State) (k : Fin 9) (o : OplVoice) : (s.setOvoice k o).revStereo = s.revStereo := rfl
@[simp] theorem State.setOvoice_lpfEn (s : State) (k : Fin 9) (o : OplVoice) : (s.setOvoice k o).lpfEn = s.lpfEn := rfl
@[simp] theorem State.setOvoice_musicGen (s : State) (k : Fin 9) (o : OplVoice) : (s.setOvoice k o).musicGen = s.musicGen := rfl
@[simp] theorem State.setOvoice_masterVol (s : State) (k : Fin 9) (o : OplVoice) : (s.setOvoice k o).masterVol = s.masterVol := rfl
@[simp] theorem State.setOvoice_musicVol (s : State) (k : Fin 9) (o : OplVoice) : (s.setOvoice k o).musicVol = s.musicVol := rfl
@[simp] theorem State.setOvoice_alpha (s : State) (k : Fin 9) (o : OplVoice) : (s.setOvoice k o).alpha = s.alpha := rfl
@[simp] theorem State.setOvoice_beta (s : State) (k : Fin 9) (o : OplVoice) : (s.setOvoice k o).beta = s.beta := rfl
@[simp] theorem State.setOvoice_gen (s : State) (k : Fin 9) (o : OplVoice) : (s.setOvoice k o).gen = s.gen := rfl
@[simp] theorem State.setOvoice_voices (s : State) (k : Fin 9) (o : OplVoice) : (s.setOvoice k o).voices = s.voices := rfl
@[simp] theorem State.setOvoice_cbq (s : State) (k : Fin 9) (o : OplVoice) : (s.setOvoice k o).cbq = s.cbq := rfl
@[simp] theorem State.setOvoice_draining (s : State) (k : Fin 9) (o : OplVoice) : (s.setOvoice k o).draining = s.draining := rfl
@[simp] theorem State.setOvoice_drainLeft (s : State) (k : Fin 9) (o : OplVoice) : (s.setOvoice k o).drainLeft = s.drainLeft := rfl
@[simp] theorem State.setOvoice_cbValid (s : State) (k : Fin 9) (o : OplVoice) : (s.setOvoice k o).cbValid = s.cbValid := rfl
@[simp] theorem State.setOvoice_cbToken (s : State) (k : Fin 9) (o : OplVoice) : (s.setOvoice k o).cbToken = s.cbToken := rfl
@[simp] theorem State.setOvoice_ovoices (s : State) (k : Fin 9) (o : OplVoice) : (s.setOvoice k o).ovoices = s.ovoices.set k o := rfl
@[simp] theorem State.setOvoice_chans (s : State) (k : Fin 9) (o : OplVoice) : (s.setOvoice k o).chans = s.chans := rfl
@[simp] theorem State.setOvoice_tb (s : State) (k : Fin 9) (o : OplVoice) : (s.setOvoice k o).tb = s.tb := rfl
@[simp] theorem State.setOvoice_tbValid (s : State) (k : Fin 9) (o : OplVoice) : (s.setOvoice k o).tbValid = s.tbValid := rfl
@[simp] theorem State.setOvoice_oplw (s : State) (k : Fin 9) (o : OplVoice) : (s.setOvoice k o).oplw = s.oplw := rfl
@[simp] theorem State.setOvoice_cbout (s : State) (k : Fin 9) (o : OplVoice) : (s.setOvoice k o).cbout = s.cbout := rfl
@[simp] theorem State.setOvoice_mem (s : State) (k : Fin 9) (o : OplVoice) : (s.setOvoice k o).mem = s.mem := rfl
@[simp] theorem State.setOvoice_cfg (s : State) (k : Fin 9) (o : OplVoice) : (s.setOvoice k o).cfg = s.cfg := rfl
@[simp] theorem State.setOvoice_hostq (s : State) (k : Fin 9) (o : OplVoice) : (s.setOvoice k o).hostq = s.hostq := rfl
@[simp] theorem State.setOvoice_hostData (s : State) (k : Fin 9) (o : OplVoice) : (s.setOvoice k o).hostData = s.hostData := rfl
@[simp] theorem State.setOvoice_freeCtr (s : State) (k : Fin 9) (o : OplVoice) : (s.setOvoice k o).freeCtr = s.freeCtr := rfl

/-! ### writing a voice slot (10_state.md R35) -/

@[simp] theorem State.setVoice_x (s : State) (i : Nat) (v : Voice) : (s.setVoice i v).x = s.x := rfl
@[simp] theorem State.setVoice_res (s : State) (i : Nat) (v : Voice) : (s.setVoice i v).res = s.res := rfl
@[simp] theorem State.setVoice_busy (s : State) (i : Nat) (v : Voice) : (s.setVoice i v).busy = s.busy := rfl
@[simp] theorem State.setVoice_err (s : State) (i : Nat) (v : Voice) : (s.setVoice i v).err = s.err := rfl
@[simp] theorem State.setVoice_errflags (s : State) (i : Nat) (v : Voice) : (s.setVoice i v).errflags = s.errflags := rfl
@[simp] theorem State.setVoice_revStereo (s : State) (i : Nat) (v : Voice) : (s.setVoice i v).revStereo = s.revStereo := rfl
@[simp] theorem State.setVoice_lpfEn (s : State) (i : Nat) (v : Voice) : (s.setVoice i v).lpfEn = s.lpfEn := rfl
@[simp] theorem State.setVoice_musicGen (s : State) (i : Nat) (v : Voice) : (s.setVoice i v).musicGen = s.musicGen := rfl
@[simp] theorem State.setVoice_masterVol (s : State) (i : Nat) (v : Voice) : (s.setVoice i v).masterVol = s.masterVol := rfl
@[simp] theorem State.setVoice_musicVol (s : State) (i : Nat) (v : Voice) : (s.setVoice i v).musicVol = s.musicVol := rfl
@[simp] theorem State.setVoice_alpha (s : State) (i : Nat) (v : Voice) : (s.setVoice i v).alpha = s.alpha := rfl
@[simp] theorem State.setVoice_beta (s : State) (i : Nat) (v : Voice) : (s.setVoice i v).beta = s.beta := rfl
@[simp] theorem State.setVoice_gen (s : State) (i : Nat) (v : Voice) : (s.setVoice i v).gen = s.gen := rfl
@[simp] theorem State.setVoice_voices (s : State) (i : Nat) (v : Voice) : (s.setVoice i v).voices = s.voices.set i v := rfl
@[simp] theorem State.setVoice_cbq (s : State) (i : Nat) (v : Voice) : (s.setVoice i v).cbq = s.cbq := rfl
@[simp] theorem State.setVoice_draining (s : State) (i : Nat) (v : Voice) : (s.setVoice i v).draining = s.draining := rfl
@[simp] theorem State.setVoice_drainLeft (s : State) (i : Nat) (v : Voice) : (s.setVoice i v).drainLeft = s.drainLeft := rfl
@[simp] theorem State.setVoice_cbValid (s : State) (i : Nat) (v : Voice) : (s.setVoice i v).cbValid = s.cbValid := rfl
@[simp] theorem State.setVoice_cbToken (s : State) (i : Nat) (v : Voice) : (s.setVoice i v).cbToken = s.cbToken := rfl
@[simp] theorem State.setVoice_ovoices (s : State) (i : Nat) (v : Voice) : (s.setVoice i v).ovoices = s.ovoices := rfl
@[simp] theorem State.setVoice_chans (s : State) (i : Nat) (v : Voice) : (s.setVoice i v).chans = s.chans := rfl
@[simp] theorem State.setVoice_tb (s : State) (i : Nat) (v : Voice) : (s.setVoice i v).tb = s.tb := rfl
@[simp] theorem State.setVoice_tbValid (s : State) (i : Nat) (v : Voice) : (s.setVoice i v).tbValid = s.tbValid := rfl
@[simp] theorem State.setVoice_oplw (s : State) (i : Nat) (v : Voice) : (s.setVoice i v).oplw = s.oplw := rfl
@[simp] theorem State.setVoice_cbout (s : State) (i : Nat) (v : Voice) : (s.setVoice i v).cbout = s.cbout := rfl
@[simp] theorem State.setVoice_mem (s : State) (i : Nat) (v : Voice) : (s.setVoice i v).mem = s.mem := rfl
@[simp] theorem State.setVoice_cfg (s : State) (i : Nat) (v : Voice) : (s.setVoice i v).cfg = s.cfg := rfl
@[simp] theorem State.setVoice_hostq (s : State) (i : Nat) (v : Voice) : (s.setVoice i v).hostq = s.hostq := rfl
@[simp] theorem State.setVoice_hostData (s : State) (i : Nat) (v : Voice) : (s.setVoice i v).hostData = s.hostData := rfl
@[simp] theorem State.setVoice_freeCtr (s : State) (i : Nat) (v : Voice) : (s.setVoice i v).freeCtr = s.freeCtr := rfl

/-! ### writing a channel (10_state.md R44) -/

@[simp] theorem State.setChan_x (s : State) (ch : BitVec 4) (c : Channel) : (s.setChan ch c).x = s.x := rfl
@[simp] theorem State.setChan_res (s : State) (ch : BitVec 4) (c : Channel) : (s.setChan ch c).res = s.res := rfl
@[simp] theorem State.setChan_busy (s : State) (ch : BitVec 4) (c : Channel) : (s.setChan ch c).busy = s.busy := rfl
@[simp] theorem State.setChan_err (s : State) (ch : BitVec 4) (c : Channel) : (s.setChan ch c).err = s.err := rfl
@[simp] theorem State.setChan_errflags (s : State) (ch : BitVec 4) (c : Channel) : (s.setChan ch c).errflags = s.errflags := rfl
@[simp] theorem State.setChan_revStereo (s : State) (ch : BitVec 4) (c : Channel) : (s.setChan ch c).revStereo = s.revStereo := rfl
@[simp] theorem State.setChan_lpfEn (s : State) (ch : BitVec 4) (c : Channel) : (s.setChan ch c).lpfEn = s.lpfEn := rfl
@[simp] theorem State.setChan_musicGen (s : State) (ch : BitVec 4) (c : Channel) : (s.setChan ch c).musicGen = s.musicGen := rfl
@[simp] theorem State.setChan_masterVol (s : State) (ch : BitVec 4) (c : Channel) : (s.setChan ch c).masterVol = s.masterVol := rfl
@[simp] theorem State.setChan_musicVol (s : State) (ch : BitVec 4) (c : Channel) : (s.setChan ch c).musicVol = s.musicVol := rfl
@[simp] theorem State.setChan_alpha (s : State) (ch : BitVec 4) (c : Channel) : (s.setChan ch c).alpha = s.alpha := rfl
@[simp] theorem State.setChan_beta (s : State) (ch : BitVec 4) (c : Channel) : (s.setChan ch c).beta = s.beta := rfl
@[simp] theorem State.setChan_gen (s : State) (ch : BitVec 4) (c : Channel) : (s.setChan ch c).gen = s.gen := rfl
@[simp] theorem State.setChan_voices (s : State) (ch : BitVec 4) (c : Channel) : (s.setChan ch c).voices = s.voices := rfl
@[simp] theorem State.setChan_cbq (s : State) (ch : BitVec 4) (c : Channel) : (s.setChan ch c).cbq = s.cbq := rfl
@[simp] theorem State.setChan_draining (s : State) (ch : BitVec 4) (c : Channel) : (s.setChan ch c).draining = s.draining := rfl
@[simp] theorem State.setChan_drainLeft (s : State) (ch : BitVec 4) (c : Channel) : (s.setChan ch c).drainLeft = s.drainLeft := rfl
@[simp] theorem State.setChan_cbValid (s : State) (ch : BitVec 4) (c : Channel) : (s.setChan ch c).cbValid = s.cbValid := rfl
@[simp] theorem State.setChan_cbToken (s : State) (ch : BitVec 4) (c : Channel) : (s.setChan ch c).cbToken = s.cbToken := rfl
@[simp] theorem State.setChan_ovoices (s : State) (ch : BitVec 4) (c : Channel) : (s.setChan ch c).ovoices = s.ovoices := rfl
@[simp] theorem State.setChan_chans (s : State) (ch : BitVec 4) (c : Channel) : (s.setChan ch c).chans = s.chans.set ch.toFin c := rfl
@[simp] theorem State.setChan_tb (s : State) (ch : BitVec 4) (c : Channel) : (s.setChan ch c).tb = s.tb := rfl
@[simp] theorem State.setChan_tbValid (s : State) (ch : BitVec 4) (c : Channel) : (s.setChan ch c).tbValid = s.tbValid := rfl
@[simp] theorem State.setChan_oplw (s : State) (ch : BitVec 4) (c : Channel) : (s.setChan ch c).oplw = s.oplw := rfl
@[simp] theorem State.setChan_cbout (s : State) (ch : BitVec 4) (c : Channel) : (s.setChan ch c).cbout = s.cbout := rfl
@[simp] theorem State.setChan_mem (s : State) (ch : BitVec 4) (c : Channel) : (s.setChan ch c).mem = s.mem := rfl
@[simp] theorem State.setChan_cfg (s : State) (ch : BitVec 4) (c : Channel) : (s.setChan ch c).cfg = s.cfg := rfl
@[simp] theorem State.setChan_hostq (s : State) (ch : BitVec 4) (c : Channel) : (s.setChan ch c).hostq = s.hostq := rfl
@[simp] theorem State.setChan_hostData (s : State) (ch : BitVec 4) (c : Channel) : (s.setChan ch c).hostData = s.hostData := rfl
@[simp] theorem State.setChan_freeCtr (s : State) (ch : BitVec 4) (c : Channel) : (s.setChan ch c).freeCtr = s.freeCtr := rfl

/-! ### opening a drain session (43_callback_queue.md R234) -/

@[simp] theorem State.openDrain_x (s : State) : s.openDrain.x = s.x := rfl
@[simp] theorem State.openDrain_res (s : State) : s.openDrain.res = s.res := rfl
@[simp] theorem State.openDrain_busy (s : State) : s.openDrain.busy = s.busy := rfl
@[simp] theorem State.openDrain_err (s : State) : s.openDrain.err = s.err := rfl
@[simp] theorem State.openDrain_errflags (s : State) : s.openDrain.errflags = s.errflags := rfl
@[simp] theorem State.openDrain_revStereo (s : State) : s.openDrain.revStereo = s.revStereo := rfl
@[simp] theorem State.openDrain_lpfEn (s : State) : s.openDrain.lpfEn = s.lpfEn := rfl
@[simp] theorem State.openDrain_musicGen (s : State) : s.openDrain.musicGen = s.musicGen := rfl
@[simp] theorem State.openDrain_masterVol (s : State) : s.openDrain.masterVol = s.masterVol := rfl
@[simp] theorem State.openDrain_musicVol (s : State) : s.openDrain.musicVol = s.musicVol := rfl
@[simp] theorem State.openDrain_alpha (s : State) : s.openDrain.alpha = s.alpha := rfl
@[simp] theorem State.openDrain_beta (s : State) : s.openDrain.beta = s.beta := rfl
@[simp] theorem State.openDrain_gen (s : State) : s.openDrain.gen = s.gen := rfl
@[simp] theorem State.openDrain_voices (s : State) : s.openDrain.voices = s.voices := rfl
@[simp] theorem State.openDrain_cbq (s : State) : s.openDrain.cbq = s.cbq := rfl
@[simp] theorem State.openDrain_draining (s : State) : s.openDrain.draining = true := rfl
@[simp] theorem State.openDrain_drainLeft (s : State) : s.openDrain.drainLeft = 8 := rfl
@[simp] theorem State.openDrain_cbValid (s : State) : s.openDrain.cbValid = s.cbValid := rfl
@[simp] theorem State.openDrain_cbToken (s : State) : s.openDrain.cbToken = s.cbToken := rfl
@[simp] theorem State.openDrain_ovoices (s : State) : s.openDrain.ovoices = s.ovoices := rfl
@[simp] theorem State.openDrain_chans (s : State) : s.openDrain.chans = s.chans := rfl
@[simp] theorem State.openDrain_tb (s : State) : s.openDrain.tb = s.tb := rfl
@[simp] theorem State.openDrain_tbValid (s : State) : s.openDrain.tbValid = s.tbValid := rfl
@[simp] theorem State.openDrain_oplw (s : State) : s.openDrain.oplw = s.oplw := rfl
@[simp] theorem State.openDrain_cbout (s : State) : s.openDrain.cbout = s.cbout := rfl
@[simp] theorem State.openDrain_mem (s : State) : s.openDrain.mem = s.mem := rfl
@[simp] theorem State.openDrain_cfg (s : State) : s.openDrain.cfg = s.cfg := rfl
@[simp] theorem State.openDrain_hostq (s : State) : s.openDrain.hostq = s.hostq := rfl
@[simp] theorem State.openDrain_hostData (s : State) : s.openDrain.hostData = s.hostData := rfl
@[simp] theorem State.openDrain_freeCtr (s : State) : s.openDrain.freeCtr = s.freeCtr := rfl

/-! ### The state after reset (10_state.md R49) -/

@[simp] theorem State.resetWith_x (c : Config) : (State.resetWith c).x = Vector.replicate 16 0 := rfl
@[simp] theorem State.resetWith_res (c : Config) : (State.resetWith c).res = 0 := rfl
@[simp] theorem State.resetWith_busy (c : Config) : (State.resetWith c).busy = false := rfl
@[simp] theorem State.resetWith_err (c : Config) : (State.resetWith c).err = 0 := rfl
@[simp] theorem State.resetWith_errflags (c : Config) : (State.resetWith c).errflags = 0 := rfl
@[simp] theorem State.resetWith_revStereo (c : Config) : (State.resetWith c).revStereo = false := rfl
@[simp] theorem State.resetWith_lpfEn (c : Config) : (State.resetWith c).lpfEn = false := rfl
@[simp] theorem State.resetWith_musicGen (c : Config) : (State.resetWith c).musicGen = false := rfl
@[simp] theorem State.resetWith_masterVol (c : Config) : (State.resetWith c).masterVol = 255 := rfl
@[simp] theorem State.resetWith_musicVol (c : Config) : (State.resetWith c).musicVol = 255 := rfl
@[simp] theorem State.resetWith_alpha (c : Config) : (State.resetWith c).alpha = 256 := rfl
@[simp] theorem State.resetWith_beta (c : Config) : (State.resetWith c).beta = 0 := rfl
@[simp] theorem State.resetWith_gen (c : Config) : (State.resetWith c).gen = 0 := rfl
@[simp] theorem State.resetWith_voices (c : Config) : (State.resetWith c).voices = List.replicate c.nv Voice.reset := rfl
@[simp] theorem State.resetWith_cbq (c : Config) : (State.resetWith c).cbq = ⟨Vector.replicate 32 0, 0, 0, 0⟩ := rfl
@[simp] theorem State.resetWith_draining (c : Config) : (State.resetWith c).draining = false := rfl
@[simp] theorem State.resetWith_drainLeft (c : Config) : (State.resetWith c).drainLeft = 0 := rfl
@[simp] theorem State.resetWith_cbValid (c : Config) : (State.resetWith c).cbValid = false := rfl
@[simp] theorem State.resetWith_cbToken (c : Config) : (State.resetWith c).cbToken = 0 := rfl
@[simp] theorem State.resetWith_ovoices (c : Config) : (State.resetWith c).ovoices = Vector.replicate 9 OplVoice.reset := rfl
@[simp] theorem State.resetWith_chans (c : Config) : (State.resetWith c).chans = Vector.replicate 16 (Channel.reset c) := rfl
@[simp] theorem State.resetWith_tb (c : Config) : (State.resetWith c).tb = List.replicate 3328 0 := rfl
@[simp] theorem State.resetWith_tbValid (c : Config) : (State.resetWith c).tbValid = false := rfl
@[simp] theorem State.resetWith_oplw (c : Config) : (State.resetWith c).oplw = [] := rfl
@[simp] theorem State.resetWith_cbout (c : Config) : (State.resetWith c).cbout = [] := rfl
@[simp] theorem State.resetWith_mem (c : Config) : (State.resetWith c).mem = [] := rfl
@[simp] theorem State.resetWith_cfg (c : Config) : (State.resetWith c).cfg = c := rfl
@[simp] theorem State.resetWith_hostq (c : Config) : (State.resetWith c).hostq = [] := rfl
@[simp] theorem State.resetWith_hostData (c : Config) : (State.resetWith c).hostData = 0 := rfl
@[simp] theorem State.resetWith_freeCtr (c : Config) : (State.resetWith c).freeCtr = 0 := rfl

/-! ### What both resets leave (10_state.md R49, R50) -/

@[simp] theorem State.cleared_x (s : State) : s.cleared.x = s.x := rfl
@[simp] theorem State.cleared_res (s : State) : s.cleared.res = 0 := rfl
@[simp] theorem State.cleared_busy (s : State) : s.cleared.busy = false := rfl
@[simp] theorem State.cleared_err (s : State) : s.cleared.err = 0 := rfl
@[simp] theorem State.cleared_errflags (s : State) : s.cleared.errflags = 0 := rfl
@[simp] theorem State.cleared_revStereo (s : State) : s.cleared.revStereo = false := rfl
@[simp] theorem State.cleared_lpfEn (s : State) : s.cleared.lpfEn = false := rfl
@[simp] theorem State.cleared_musicGen (s : State) : s.cleared.musicGen = false := rfl
@[simp] theorem State.cleared_masterVol (s : State) : s.cleared.masterVol = 255 := rfl
@[simp] theorem State.cleared_musicVol (s : State) : s.cleared.musicVol = 255 := rfl
@[simp] theorem State.cleared_alpha (s : State) : s.cleared.alpha = 256 := rfl
@[simp] theorem State.cleared_beta (s : State) : s.cleared.beta = 0 := rfl
@[simp] theorem State.cleared_gen (s : State) : s.cleared.gen = 0 := rfl
@[simp] theorem State.cleared_voices (s : State) : s.cleared.voices = (List.range s.cfg.nv).map (Voice.cleared s.freeCtr) := rfl
@[simp] theorem State.cleared_cbq (s : State) : s.cleared.cbq = CallbackQueue.cleared s.freeCtr := rfl
@[simp] theorem State.cleared_draining (s : State) : s.cleared.draining = false := rfl
@[simp] theorem State.cleared_drainLeft (s : State) : s.cleared.drainLeft = 0 := rfl
@[simp] theorem State.cleared_cbValid (s : State) : s.cleared.cbValid = false := rfl
@[simp] theorem State.cleared_cbToken (s : State) : s.cleared.cbToken = 0 := rfl
@[simp] theorem State.cleared_ovoices (s : State) : s.cleared.ovoices = Vector.replicate 9 OplVoice.reset := rfl
@[simp] theorem State.cleared_chans (s : State) : s.cleared.chans = Vector.replicate 16 (Channel.reset s.cfg) := rfl
@[simp] theorem State.cleared_tbValid (s : State) : s.cleared.tbValid = false := rfl
@[simp] theorem State.cleared_oplw (s : State) : s.cleared.oplw = s.oplw := rfl
@[simp] theorem State.cleared_cbout (s : State) : s.cleared.cbout = s.cbout := rfl
@[simp] theorem State.cleared_mem (s : State) : s.cleared.mem = s.mem := rfl
@[simp] theorem State.cleared_cfg (s : State) : s.cleared.cfg = s.cfg := rfl
@[simp] theorem State.cleared_hostq (s : State) : s.cleared.hostq = s.hostq := rfl
@[simp] theorem State.cleared_hostData (s : State) : s.cleared.hostData = s.hostData := rfl
@[simp] theorem State.cleared_freeCtr (s : State) : s.cleared.freeCtr = s.freeCtr + 1 := rfl

/-! ### What a hardware reset leaves (10_state.md R49, R50) -/

@[simp] theorem State.hardwareReset_x (s : State) : s.hardwareReset.x = Vector.replicate 16 0 := rfl
@[simp] theorem State.hardwareReset_res (s : State) : s.hardwareReset.res = 0 := rfl
@[simp] theorem State.hardwareReset_busy (s : State) : s.hardwareReset.busy = false := rfl
@[simp] theorem State.hardwareReset_err (s : State) : s.hardwareReset.err = 0 := rfl
@[simp] theorem State.hardwareReset_errflags (s : State) : s.hardwareReset.errflags = 0 := rfl
@[simp] theorem State.hardwareReset_revStereo (s : State) : s.hardwareReset.revStereo = false := rfl
@[simp] theorem State.hardwareReset_lpfEn (s : State) : s.hardwareReset.lpfEn = false := rfl
@[simp] theorem State.hardwareReset_musicGen (s : State) : s.hardwareReset.musicGen = false := rfl
@[simp] theorem State.hardwareReset_masterVol (s : State) : s.hardwareReset.masterVol = 255 := rfl
@[simp] theorem State.hardwareReset_musicVol (s : State) : s.hardwareReset.musicVol = 255 := rfl
@[simp] theorem State.hardwareReset_alpha (s : State) : s.hardwareReset.alpha = 256 := rfl
@[simp] theorem State.hardwareReset_beta (s : State) : s.hardwareReset.beta = 0 := rfl
@[simp] theorem State.hardwareReset_gen (s : State) : s.hardwareReset.gen = 0 := rfl
@[simp] theorem State.hardwareReset_voices (s : State) : s.hardwareReset.voices = (List.range s.cfg.nv).map (Voice.cleared s.freeCtr) := rfl
@[simp] theorem State.hardwareReset_cbq (s : State) : s.hardwareReset.cbq = CallbackQueue.cleared s.freeCtr := rfl
@[simp] theorem State.hardwareReset_draining (s : State) : s.hardwareReset.draining = false := rfl
@[simp] theorem State.hardwareReset_drainLeft (s : State) : s.hardwareReset.drainLeft = 0 := rfl
@[simp] theorem State.hardwareReset_cbValid (s : State) : s.hardwareReset.cbValid = false := rfl
@[simp] theorem State.hardwareReset_cbToken (s : State) : s.hardwareReset.cbToken = 0 := rfl
@[simp] theorem State.hardwareReset_ovoices (s : State) : s.hardwareReset.ovoices = Vector.replicate 9 OplVoice.reset := rfl
@[simp] theorem State.hardwareReset_chans (s : State) : s.hardwareReset.chans = Vector.replicate 16 (Channel.reset s.cfg) := rfl
@[simp] theorem State.hardwareReset_tbValid (s : State) : s.hardwareReset.tbValid = false := rfl
@[simp] theorem State.hardwareReset_oplw (s : State) : s.hardwareReset.oplw = [] := rfl
@[simp] theorem State.hardwareReset_cbout (s : State) : s.hardwareReset.cbout = [] := rfl
@[simp] theorem State.hardwareReset_mem (s : State) : s.hardwareReset.mem = s.mem := rfl
@[simp] theorem State.hardwareReset_cfg (s : State) : s.hardwareReset.cfg = s.cfg := rfl
@[simp] theorem State.hardwareReset_hostq (s : State) : s.hardwareReset.hostq = s.hostq := rfl
@[simp] theorem State.hardwareReset_hostData (s : State) : s.hardwareReset.hostData = s.hostData := rfl
@[simp] theorem State.hardwareReset_freeCtr (s : State) : s.hardwareReset.freeCtr = s.freeCtr + 1 := rfl

/-- A free timbre bank has the bank's size (10_state.md R45). -/
@[simp] theorem tbCleared_length (event : Nat) : (tbCleared event).length = 3328 := by
  unfold tbCleared
  rw [List.length_map, List.length_range]

/-- A reset keeps the size of the timbre bank. -/
theorem State.cleared_tb_length (s : State) : s.cleared.tb.length = 3328 := by
  simp only [State.cleared, tbCleared_length]

/-! ### Clearing BUSY at the end of a command (30_encoding.md R112) -/

@[simp] theorem clearBusy_next (t : State) : clearBusy (.next t) = .next { t with busy := false } := rfl

/-- `clearBusy` answers a next state exactly when its argument does. -/
theorem clearBusy_eq_next {r : Result} {t : State} (h : clearBusy r = .next t) :
    ∃ u, r = .next u ∧ t = { u with busy := false } := by
  cases r with
  | next u => exact ⟨u, rfl, by cases h; rfl⟩
  | fault f => cases f
  | refused f => cases h

end Sys2Proof.Machine
end

