-- ==== Sys2Proof/Laws/Pool.lean ====
section
/-! SUPPORT. The voice-pool arbiter (40_voice_pool.md): what each shared operation can do. -/

namespace Sys2Proof.Machine

/-- `lookup(h)` (40_voice_pool.md R132) answers slot `i` exactly when the handle names `i`, a slot of the table whose
generation is the handle's, and that is not 0. -/
theorem State.lookup_eq_some {s : State} {h : Word} {i : Nat} {v : Voice} :
    s.lookup h = some (i, v) ↔
      handleGen h ≠ 0 ∧ i = handleSlot h ∧ i < s.cfg.nv ∧ s.voices[i]? = some v ∧ v.gen = handleGen h := by
  unfold State.lookup
  by_cases h0 : handleGen h = 0 ∨ s.cfg.nv ≤ handleSlot h
  · rw [if_pos h0]
    refine ⟨fun hn => by simp at hn, fun ⟨ha, hb, hc, _, _⟩ => ?_⟩
    subst hb
    rcases h0 with h0 | h0
    · exact absurd h0 ha
    · omega
  · rw [if_neg h0]
    push Not at h0
    cases hv : s.voices[handleSlot h]? with
    | none =>
      refine ⟨fun hn => by simp at hn, fun ⟨_, hb, _, hd, _⟩ => ?_⟩
      rw [hb, hv] at hd
      cases hd
    | some w =>
      by_cases hg : w.gen = handleGen h
      · simp only [hg, if_true, Option.some.injEq, Prod.mk.injEq]
        constructor
        · rintro ⟨rfl, rfl⟩
          exact ⟨h0.1, rfl, h0.2, hv, hg⟩
        · rintro ⟨_, rfl, _, hd, _⟩
          rw [hv] at hd
          exact ⟨rfl, by simpa using hd⟩
      · simp only [hg, if_false]
        refine ⟨fun hn => by simp at hn, fun ⟨_, hb, _, hd, he⟩ => ?_⟩
        subst hb
        rw [hv] at hd
        cases hd
        exact absurd he hg

/-- A handle that `lookup` accepts names a slot of the voice list. -/
theorem State.lookup_mem {s : State} {h : Word} {i : Nat} {v : Voice} (hl : s.lookup h = some (i, v)) : v ∈ s.voices :=
  List.mem_of_getElem? (State.lookup_eq_some.1 hl).2.2.2.1

/-- The generation and the slot of a handle (40_voice_pool.md R131). -/
theorem handle_fields (g : BitVec 24) {i : Nat} (h : i < 256) :
    handleGen (g ++ BitVec.ofNat 8 i : Word) = g ∧ handleSlot (g ++ BitVec.ofNat 8 i : Word) = i := by
  constructor
  · unfold handleGen
    ext j hj
    rw [BitVec.getElem_extractLsb', BitVec.getLsbD_append]
    simp [BitVec.getLsbD_eq_getElem hj]
  · unfold handleSlot
    rw [BitVec.extractLsb'_toNat, BitVec.toNat_append, BitVec.toNat_ofNat, Nat.shiftRight_zero,
      Nat.mod_eq_of_lt (show i < 2 ^ 8 from h), Nat.shiftLeft_eq,
      ← Nat.shiftLeft_eq, ← Nat.shiftLeft_add_eq_or_of_lt (show i < 2 ^ 8 from h), Nat.shiftLeft_eq]
    omega

/-- A handle is its generation and its slot (40_voice_pool.md R131). -/
theorem handle_eta (h : Word) : (handleGen h ++ BitVec.ofNat 8 (handleSlot h) : Word) = h := by
  unfold handleGen handleSlot
  ext j hj
  rw [BitVec.getElem_append]
  split
  · rename_i h8
    rw [BitVec.ofNat_toNat, BitVec.setWidth_eq, BitVec.getElem_extractLsb', Nat.zero_add, BitVec.getLsbD_eq_getElem hj]
  · rename_i h8
    rw [BitVec.getElem_extractLsb', show 8 + (j - 8) = j by omega, BitVec.getLsbD_eq_getElem hj]

/-- `lookup` of the handle register accepts exactly the handles the spec calls valid (40_voice_pool.md R132). -/
theorem State.lookup_iff_handleAt {s : State} {i : Nat} {v : Voice} :
    s.lookup s.opHandle = some (i, v) ↔ s.HandleAt i v := by
  rw [State.lookup_eq_some]
  unfold State.opHandle
  constructor
  · rintro ⟨h1, rfl, h3, h4, h5⟩
    refine ⟨h4, h3, ?_, by rw [h5]; exact h1, by rw [h5, handle_eta]⟩
    unfold handleSlot
    exact BitVec.isLt _
  · rintro ⟨h1, h2, h3, h4, h5⟩
    rw [h5, (handle_fields v.gen h3).1, (handle_fields v.gen h3).2]
    exact ⟨h4, rfl, h2, h1, rfl⟩

/-- Scan 2 of `allocate` (40_voice_pool.md R133): the result is the starting best or the first of the list's slots with
the lowest priority, if that is lower. -/
theorem lowestPrio_spec (vs : List Voice) : ∀ (i best : Nat) (p : Int),
    ((lowestPrio vs i best p).1 = best ∧ (lowestPrio vs i best p).2 = p ∧ ∀ v ∈ vs, p ≤ v.prio.toInt) ∨
    (∃ (j : Nat) (v : Voice), vs[j]? = some v ∧ (lowestPrio vs i best p).1 = i + j ∧
      (lowestPrio vs i best p).2 = v.prio.toInt ∧ v.prio.toInt < p ∧ (∀ w ∈ vs, v.prio.toInt ≤ w.prio.toInt) ∧
      ∀ (j' : Nat) (w : Voice), j' < j → vs[j']? = some w → v.prio.toInt < w.prio.toInt) := by
  induction vs with
  | nil => intro i best p; exact .inl ⟨rfl, rfl, by simp⟩
  | cons v vs ih =>
    intro i best p
    by_cases hv : v.prio.toInt < p
    · simp only [lowestPrio, if_pos hv]
      right
      rcases ih (i + 1) i v.prio.toInt with ⟨h1, h2, h3⟩ | ⟨j, w, hj, h1, h2, h3, h4, h5⟩
      · refine ⟨0, v, rfl, by omega, h2, hv, ?_, by omega⟩
        intro w hw
        rcases List.mem_cons.1 hw with rfl | hw
        · exact le_refl _
        · exact h3 w hw
      · refine ⟨j + 1, w, by simpa using hj, by omega, h2, by omega, ?_, ?_⟩
        · intro u hu
          rcases List.mem_cons.1 hu with rfl | hu
          · omega
          · exact h4 u hu
        · intro j' u hj' hu
          cases j' with
          | zero => simp only [List.getElem?_cons_zero, Option.some.injEq] at hu; subst hu; exact h3
          | succ j' => exact h5 j' u (by omega) (by simpa using hu)
    · simp only [lowestPrio, if_neg hv]
      rcases ih (i + 1) best p with ⟨h1, h2, h3⟩ | ⟨j, w, hj, h1, h2, h3, h4, h5⟩
      · refine .inl ⟨h1, h2, fun w hw => ?_⟩
        rcases List.mem_cons.1 hw with rfl | hw
        · omega
        · exact h3 w hw
      · refine .inr ⟨j + 1, w, by simpa using hj, by omega, h2, h3, ?_, ?_⟩
        · intro u hu
          rcases List.mem_cons.1 hu with rfl | hu
          · omega
          · exact h4 u hu
        · intro j' u hj' hu
          cases j' with
          | zero => simp only [List.getElem?_cons_zero, Option.some.injEq] at hu; subst hu; omega
          | succ j' => exact h5 j' u (by omega) (by simpa using hu)

/-- What `allocate` can answer (40_voice_pool.md R133): the first inactive slot; or, with every slot active, the first of
the slots of lowest priority, which is below the request's. -/
theorem allocate_eq_some {vs : List Voice} {prio : Int} {i : Nat} (h : allocate vs prio = some i) :
    ∃ v, vs[i]? = some v ∧
      ((v.active = false ∧ ∀ j w, j < i → vs[j]? = some w → w.active = true) ∨
       ((∀ w ∈ vs, w.active = true) ∧ v.prio.toInt < prio ∧ (∀ w ∈ vs, v.prio.toInt ≤ w.prio.toInt) ∧
        ∀ j w, j < i → vs[j]? = some w → v.prio.toInt < w.prio.toInt)) := by
  unfold allocate at h
  cases hf : vs.findIdx? (fun v => !v.active) with
  | some k =>
    rw [hf] at h
    cases h
    obtain ⟨hk, hp, hlt⟩ := List.findIdx?_eq_some_iff_getElem.1 hf
    refine ⟨vs[i], by simp [hk], .inl ⟨by simpa using hp, fun j w hj hw => ?_⟩⟩
    have hj' := hlt j hj
    rw [List.getElem?_eq_getElem (by omega)] at hw
    cases hw
    simpa using hj'
  | none =>
    rw [hf] at h
    have hall : ∀ w ∈ vs, w.active = true := by
      intro w hw
      simpa using List.findIdx?_eq_none_iff.1 hf w hw
    cases vs with
    | nil => cases h
    | cons v rest =>
      simp only at h
      split at h
      · rename_i hlt
        cases h
        rcases lowestPrio_spec rest 1 0 v.prio.toInt with ⟨h1, h2, h3⟩ | ⟨j, w, hj, h1, h2, h3, h4, h5⟩
        · rw [h1]
          refine ⟨v, rfl, .inr ⟨hall, by omega, ?_, by omega⟩⟩
          intro w hw
          rcases List.mem_cons.1 hw with rfl | hw
          · exact le_refl _
          · exact h3 w hw
        · rw [h1, Nat.add_comm]
          refine ⟨w, by simpa using hj, .inr ⟨hall, by omega, ?_, ?_⟩⟩
          · intro u hu
            rcases List.mem_cons.1 hu with rfl | hu
            · omega
            · exact h4 u hu
          · intro j' u hj' hu
            cases j' with
            | zero => simp only [List.getElem?_cons_zero, Option.some.injEq] at hu; subst hu; exact h3
            | succ j' => exact h5 j' u (by omega) (by simpa using hu)
      · cases h

/-- When `allocate` finds no slot (40_voice_pool.md R133): every slot is active and none has a priority below the
request's. -/
theorem allocate_eq_none {vs : List Voice} {prio : Int} (h : allocate vs prio = none) :
    ∀ w ∈ vs, w.active = true ∧ prio ≤ w.prio.toInt := by
  unfold allocate at h
  cases hf : vs.findIdx? (fun v => !v.active) with
  | some k => rw [hf] at h; cases h
  | none =>
    rw [hf] at h
    have hall : ∀ w ∈ vs, w.active = true := by
      intro w hw
      simpa using List.findIdx?_eq_none_iff.1 hf w hw
    cases vs with
    | nil => simp
    | cons v rest =>
      simp only at h
      split at h
      · cases h
      · rename_i hlt
        intro w hw
        refine ⟨hall w hw, ?_⟩
        rcases lowestPrio_spec rest 1 0 v.prio.toInt with ⟨h1, h2, h3⟩ | ⟨j, u, hj, h1, h2, h3, h4, h5⟩
        · rcases List.mem_cons.1 hw with rfl | hw
          · omega
          · exact le_trans (by omega) (h3 w hw)
        · rcases List.mem_cons.1 hw with rfl | hw
          · omega
          · exact le_trans (by omega) (h4 w hw)

/-- A slot that `allocate` answers exists. -/
theorem allocate_lt {vs : List Voice} {prio : Int} {i : Nat} (h : allocate vs prio = some i) : i < vs.length := by
  obtain ⟨v, hv, -⟩ := allocate_eq_some h
  exact (List.getElem?_eq_some_iff.1 hv).1

/-- The three ways `PLAY` ends (40_voice_pool.md R136). -/
theorem execPlay_cases (fmt : BitVec 4) (s : State) :
    (playArgsOk fmt s = false ∧ execPlay fmt s = .next (s.fail .badArg)) ∨
    (playArgsOk fmt s = true ∧ allocate s.voices s.opPrio = none ∧ execPlay fmt s = .next (s.fail .noVoice)) ∨
    (∃ i v, playArgsOk fmt s = true ∧ allocate s.voices s.opPrio = some i ∧ s.voices[i]? = some v ∧
      execPlay fmt s = .next (s.playInSlot fmt i v)) := by
  unfold execPlay
  cases ha : playArgsOk fmt s with
  | false => exact .inl ⟨rfl, rfl⟩
  | true =>
    cases hb : allocate s.voices s.opPrio with
    | none => exact .inr (.inl ⟨rfl, rfl, rfl⟩)
    | some i =>
      obtain ⟨v, hv, -⟩ := allocate_eq_some hb
      exact .inr (.inr ⟨i, v, rfl, rfl, hv, by simp [hv]⟩)

/-- The two ways a command on a handle's active voice ends (40_voice_pool.md R143 to R145). -/
theorem State.onActiveVoice_cases (s : State) (f : Voice → Voice) :
    (s.lookup s.opHandle = none ∧ s.onActiveVoice f = .next (s.fail .badHandle)) ∨
    (∃ i v, s.lookup s.opHandle = some (i, v) ∧
      s.onActiveVoice f = .next ((if v.active then s.setVoice i (f v) else s).complete 0)) := by
  unfold State.onActiveVoice
  cases h : s.lookup s.opHandle with
  | none => exact .inl ⟨rfl, rfl⟩
  | some p => obtain ⟨i, v⟩ := p; exact .inr ⟨i, v, rfl, rfl⟩

/-- The generation after an advance is never 0 (40_voice_pool.md R131). -/
theorem nextGen_ne_zero (g : BitVec 24) : nextGen g ≠ 0 := by
  unfold nextGen
  split
  · decide
  · rename_i h
    intro h0
    apply h
    have : g = 0 - 1 := by rw [← h0]; simp
    simpa using this

/-- `clamp` (00_scope.md R12) answers inside its bounds. -/
theorem clamp_bounds {v lo hi : Int} (h : lo ≤ hi) : lo ≤ clamp v lo hi ∧ clamp v lo hi ≤ hi := by
  unfold clamp
  split
  · omega
  · split <;> omega

/-- `clamp` leaves a value inside its bounds alone. -/
theorem clamp_of_mem {v lo hi : Int} (h1 : lo ≤ v) (h2 : v ≤ hi) : clamp v lo hi = v := by
  unfold clamp
  rw [if_neg (by omega), if_neg (by omega)]

end Sys2Proof.Machine
end

