-- ==== Sys2Proof/Laws/Queue.lean ====
section
/-! SUPPORT. The callback queue and the drain session (43_callback_queue.md): what each shared operation can do. -/

namespace Sys2Proof.Machine

/-- `enqueue` either drops the token into a full queue or adds it at the tail (43_callback_queue.md R231). -/
theorem CallbackQueue.enqueue_cases (q : CallbackQueue) (t : Word) :
    (q.count = 32 ∧ q.enqueue t = q) ∨ (q.count ≠ 32 ∧ q.enqueue t = q.push t) := by
  unfold CallbackQueue.enqueue CallbackQueue.full
  by_cases h : q.count = 32
  · exact .inl ⟨h, by simp [h]⟩
  · exact .inr ⟨h, by rw [beq_false_of_ne h]; rfl⟩

/-- The flags an `enqueue` leaves: `F_CBQ_OVF` exactly on a full queue (43_callback_queue.md R231). -/
theorem enqueueFlags_cases (q : CallbackQueue) (flags : BitVec 8) :
    (q.count = 32 ∧ enqueueFlags q flags = flags ||| 0x20) ∨ (q.count ≠ 32 ∧ enqueueFlags q flags = flags) := by
  unfold enqueueFlags CallbackQueue.full raiseFlag Flag.mask
  by_cases h : q.count = 32
  · exact .inl ⟨h, by simp [h]⟩
  · exact .inr ⟨h, by rw [beq_false_of_ne h]; rfl⟩

@[simp] theorem CallbackQueue.push_head (q : CallbackQueue) (t : Word) : (q.push t).head = q.head := rfl
@[simp] theorem CallbackQueue.push_tail (q : CallbackQueue) (t : Word) : (q.push t).tail = q.tail + 1 := rfl
@[simp] theorem CallbackQueue.push_count (q : CallbackQueue) (t : Word) : (q.push t).count = q.count + 1 := rfl
@[simp] theorem CallbackQueue.pop_head (q : CallbackQueue) : q.pop.head = q.head + 1 := rfl
@[simp] theorem CallbackQueue.pop_tail (q : CallbackQueue) : q.pop.tail = q.tail := rfl
@[simp] theorem CallbackQueue.pop_count (q : CallbackQueue) : q.pop.count = q.count - 1 := rfl
@[simp] theorem CallbackQueue.pop_ent (q : CallbackQueue) : q.pop.ent = q.ent := rfl

/-- `advance()` presents a token or closes the session (43_callback_queue.md R233). -/
theorem State.advance_cases (s : State) :
    (s.cbq.count ≠ 0 ∧ s.drainLeft ≠ 0 ∧
      s.advance = { s with
        cbq := s.cbq.pop, drainLeft := s.drainLeft - 1, cbToken := s.cbq.front, cbValid := true,
        cbout := s.cbout ++ [s.cbq.front] }) ∨
    ((s.cbq.count = 0 ∨ s.drainLeft = 0) ∧
      s.advance = { s with draining := false, cbValid := false, drainLeft := 0 }) := by
  unfold State.advance
  by_cases h : s.cbq.count ≠ 0 ∧ s.drainLeft ≠ 0
  · exact .inl ⟨h.1, h.2, by rw [if_pos h]; rfl⟩
  · refine .inr ⟨?_, by rw [if_neg h]⟩
    by_contra h'
    push Not at h'
    exact h h'

/-- The memory, the voices and the OPL side are not touched by `advance()`. -/
theorem State.advance_frame (s : State) :
    s.advance.voices = s.voices ∧ s.advance.mem = s.mem ∧ s.advance.ovoices = s.ovoices ∧ s.advance.chans = s.chans ∧
      s.advance.x = s.x ∧ s.advance.errflags = s.errflags ∧ s.advance.oplw = s.oplw := by
  rcases s.advance_cases with ⟨-, -, h⟩ | ⟨-, h⟩ <;> simp [h]

end Sys2Proof.Machine
end

