-- ==== Sys2Proof/Laws/Refill.lean ====
section
/-! SUPPORT. The refill unit (41_refill_adpcm.md): how many samples a refill delivers, where they come from, and what a refill
leaves alone. -/

namespace Sys2Proof.Machine

/-- Two samples per ADPCM byte (41_refill_adpcm.md R171). -/
@[simp] theorem adpcmRun_length (c : Config) (m : Memory) : ∀ (nb a : Nat) (ad : Adpcm),
    (adpcmRun c m nb a ad).2.length = 2 * nb
  | 0, _, _ => rfl
  | nb + 1, a, ad => by simp only [adpcmRun, List.length_cons, adpcmRun_length c m nb]; omega

/-- One sample per PCM unit (41_refill_adpcm.md R171). -/
@[simp] theorem pcmRun_length (m : Memory) (unit : Nat) (sgn : Bool) : ∀ (n a : Nat), (pcmRun m unit sgn a n).length = n
  | 0, _ => rfl
  | n + 1, a => by simp only [pcmRun, List.length_cons, pcmRun_length m unit sgn n]

/-- Sample `k` of a PCM run is the converted last byte of unit `k` (41_refill_adpcm.md R171, R173). -/
theorem pcmRun_getElem (m : Memory) (unit : Nat) (sgn : Bool) : ∀ (n a k : Nat) (h : k < (pcmRun m unit sgn a n).length),
    (pcmRun m unit sgn a n)[k] = pcm8 (m.read (a + unit * k + (unit - 1))) sgn
  | 0, _, _, h => by simp [pcmRun] at h
  | n + 1, a, 0, _ => by simp [pcmRun]
  | n + 1, a, k + 1, h => by
    simp only [pcmRun, List.getElem_cons_succ]
    rw [pcmRun_getElem m unit sgn n (a + unit) k]
    congr 2
    rw [Nat.mul_succ]; omega

/-- A PCM run depends on the bytes it covers only. -/
theorem pcmRun_congr {m m' : Memory} (unit : Nat) (hu : 0 < unit) (sgn : Bool) : ∀ (n a : Nat),
    (∀ b, a ≤ b → b < a + n * unit → m.read b = m'.read b) → pcmRun m unit sgn a n = pcmRun m' unit sgn a n
  | 0, _, _ => rfl
  | n + 1, a, h => by
    have hs : (n + 1) * unit = n * unit + unit := Nat.succ_mul n unit
    simp only [pcmRun]
    rw [h (a + (unit - 1)) (by omega) (by omega), pcmRun_congr unit hu sgn n (a + unit)]
    exact fun b h1 h2 => h b (by omega) (by omega)

/-- An ADPCM run depends on the bytes it covers only. -/
theorem adpcmRun_congr {m m' : Memory} (c : Config) : ∀ (nb a : Nat) (ad : Adpcm),
    (∀ b, a ≤ b → b < a + nb → m.read b = m'.read b) → adpcmRun c m nb a ad = adpcmRun c m' nb a ad
  | 0, _, _, _ => rfl
  | nb + 1, a, ad, h => by
    simp only [adpcmRun]
    rw [h a (by omega) (by omega)]
    have := fun ad' => adpcmRun_congr (m := m) (m' := m') c nb (a + 1) ad' fun b h1 h2 => h b (by omega) (by omega)
    simp only [this]

/-- A decode unit has one or two bytes (41_refill_adpcm.md R171). -/
theorem Voice.unit_pos (v : Voice) : 1 ≤ v.unit ∧ v.unit ≤ 2 := by unfold Voice.unit; split <;> omega

/-- The units left fit between the cursor and the effective end (41_refill_adpcm.md R171). -/
theorem Voice.unitsLeft_mul_le (v : Voice) : v.unitsLeft * v.unit ≤ v.bytesLeft := by
  unfold Voice.unitsLeft; exact Nat.div_mul_le_self _ _

/-- What the copying part changes: the buffer, its count, the cursor and the decoder state (41_refill_adpcm.md R171). -/
theorem Voice.fill_frame (v : Voice) (c : Config) (m : Memory) :
    v.fill c m =
      { v with
        lbuf := (v.fill c m).lbuf, lcount := (v.fill c m).lcount, srcCur := (v.fill c m).srcCur
        ad := (v.fill c m).ad } := by
  unfold Voice.fill
  split <;> rfl

/-- What a refill changes: the buffer, its count, the cursor and the decoder state (41_refill_adpcm.md R170). -/
theorem Voice.refill_frame (v : Voice) (c : Config) (m : Memory) :
    v.refill c m =
      { v with
        lbuf := (v.refill c m).lbuf, lcount := (v.refill c m).lcount, srcCur := (v.refill c m).srcCur
        ad := (v.refill c m).ad } := by
  unfold Voice.refill
  split
  · split
    · rw [Voice.fill_frame]; rfl
    · rfl
  · rw [Voice.fill_frame]

/-- The sample count of the copying part: 2 per byte up to 128 bytes, or one per unit up to 256 (41_refill_adpcm.md
R171). -/
theorem Voice.fill_lcount (v : Voice) (c : Config) (m : Memory) :
    (v.fill c m).lcount.toNat = if v.fadpcm then 2 * min 128 v.unitsLeft else min 256 v.unitsLeft := by
  unfold Voice.fill Voice.load
  split
  · simp only [adpcmRun_length, BitVec.toNat_ofNat]
    exact Nat.mod_eq_of_lt (by omega)
  · simp only [pcmRun_length, BitVec.toNat_ofNat]
    exact Nat.mod_eq_of_lt (by omega)

/-- The copying part keeps the capacity of the local buffer (10_state.md R38). -/
theorem Voice.fill_lbuf_length (v : Voice) (c : Config) (m : Memory) (h : v.lbuf.length = 256) :
    (v.fill c m).lbuf.length = 256 := by
  unfold Voice.fill Voice.load
  split
  · simp only [List.length_append, adpcmRun_length, List.length_drop, h]; omega
  · simp only [List.length_append, pcmRun_length, List.length_drop, h]; omega

/-- Source bytes the copying part consumes (41_refill_adpcm.md R171). -/
def Voice.fillBytes (v : Voice) : Nat := if v.fadpcm then min 128 v.unitsLeft else min 256 v.unitsLeft * v.unit

/-- The copying part never passes the effective end (41_refill_adpcm.md R171). -/
theorem Voice.fillBytes_le (v : Voice) : v.fillBytes ≤ v.bytesLeft := by
  have h := v.unitsLeft_mul_le
  have hu := v.unit_pos
  unfold Voice.fillBytes
  split
  · have : v.unitsLeft ≤ v.unitsLeft * v.unit := Nat.le_mul_of_pos_right _ hu.1
    omega
  · exact le_trans (Nat.mul_le_mul_right _ (Nat.min_le_right _ _)) h

/-- The source bytes left are below `2^32`. -/
theorem Voice.bytesLeft_lt (v : Voice) : v.bytesLeft < 2 ^ 32 := (v.effEnd - v.srcCur).isLt

/-- The cursor after the copying part (41_refill_adpcm.md R171). -/
theorem Voice.fill_srcCur (v : Voice) (c : Config) (m : Memory) :
    (v.fill c m).srcCur = v.srcCur + BitVec.ofNat 32 v.fillBytes := by
  unfold Voice.fill Voice.load Voice.fillBytes
  split <;> rfl

/-- The copying part leaves the source bytes it did not consume (41_refill_adpcm.md R171, R183). -/
theorem Voice.fill_bytesLeft (v : Voice) (c : Config) (m : Memory) :
    (v.fill c m).bytesLeft = v.bytesLeft - v.fillBytes := by
  have he : (v.fill c m).effEnd = v.effEnd := by rw [v.fill_frame]; rfl
  have h1 := v.fillBytes_le
  have h2 := v.bytesLeft_lt
  unfold Voice.bytesLeft at *
  rw [he, v.fill_srcCur, ← BitVec.sub_sub, BitVec.toNat_sub_of_le (BitVec.le_def.2 ?_)] <;>
    rw [BitVec.toNat_ofNat, Nat.mod_eq_of_lt (by omega)]
  exact h1

/-- The cursor of a source that does not wrap stays below its effective end, or is that end (41_refill_adpcm.md R171; an end
at `2^32` is held as 0, log 7). -/
theorem Voice.srcCur_add_bytesLeft {v : Voice} (h : v.srcCur.toNat ≤ v.effEnd.toNat) :
    v.srcCur.toNat + v.bytesLeft = v.effEnd.toNat := by
  unfold Voice.bytesLeft
  rw [BitVec.toNat_sub_of_le h]
  omega

/-- The three ways a refill goes (41_refill_adpcm.md R171): it copies, it rewinds and copies, or the source is exhausted. -/
theorem Voice.refill_cases (v : Voice) (c : Config) (m : Memory) :
    (v.unitsLeft ≠ 0 ∧ v.refill c m = v.fill c m) ∨
    (v.unitsLeft = 0 ∧ v.looping = true ∧ v.refill c m = (v.rewind c).fill c m) ∨
    (v.unitsLeft = 0 ∧ v.looping = false ∧ v.refill c m = { v with lcount := 0 }) := by
  unfold Voice.refill
  by_cases h : v.unitsLeft = 0
  · cases hl : v.looping
    · exact .inr (.inr ⟨h, rfl, by simp [h]⟩)
    · exact .inr (.inl ⟨h, rfl, by simp [h]⟩)
  · exact .inl ⟨h, by simp [h]⟩

/-- A refill delivers at most 256 samples (41_refill_adpcm.md R170). -/
theorem Voice.refill_lcount_le (v : Voice) (c : Config) (m : Memory) : (v.refill c m).lcount.toNat ≤ 256 := by
  rcases v.refill_cases c m with ⟨-, h⟩ | ⟨-, -, h⟩ | ⟨-, -, h⟩
  · rw [h, Voice.fill_lcount]; split <;> omega
  · rw [h, Voice.fill_lcount]; split <;> omega
  · rw [h]; exact Nat.zero_le 256

/-- A refill keeps the capacity of the local buffer (10_state.md R38). -/
theorem Voice.refill_lbuf_length (v : Voice) (c : Config) (m : Memory) (h : v.lbuf.length = 256) :
    (v.refill c m).lbuf.length = 256 := by
  rcases v.refill_cases c m with ⟨-, h'⟩ | ⟨-, -, h'⟩ | ⟨-, -, h'⟩
  · rw [h']; exact v.fill_lbuf_length c m h
  · rw [h']; exact (v.rewind c).fill_lbuf_length c m h
  · rw [h']; exact h

/-- A cursor that moves on by no more than the bytes left does not pass the end (10_state.md R36 (I3); log 7). -/
theorem add_le_endAddress {cur e : BitVec 32} {k : Nat} (h : cur.toNat ≤ endAddress e) (hk : k ≤ (e - cur).toNat) :
    (cur + BitVec.ofNat 32 k).toNat ≤ endAddress e := by
  have hc := cur.isLt
  have he := e.isLt
  unfold endAddress at *
  split at h
  · rename_i h0
    rw [if_pos h0]
    exact Nat.le_of_lt (BitVec.isLt _)
  · rename_i h0
    rw [if_neg h0]
    rw [BitVec.toNat_sub_of_le h] at hk
    rw [BitVec.toNat_add, BitVec.toNat_ofNat, Nat.mod_eq_of_lt (a := k) (by omega), Nat.mod_eq_of_lt (by omega)]
    omega

/-- The copying part keeps the source in order (10_state.md R36 (I3)). -/
theorem Voice.fill_sourceOk {v : Voice} (h : v.SourceOk) (c : Config) (m : Memory) : (v.fill c m).SourceOk := by
  have hb := v.fillBytes_le
  have hf := v.fill_frame c m
  have hends : (v.fill c m).srcEnd = v.srcEnd ∧ (v.fill c m).loopEnd = v.loopEnd ∧ (v.fill c m).loopStart = v.loopStart ∧
      (v.fill c m).looping = v.looping ∧ (v.fill c m).unit = v.unit ∧ (v.fill c m).active = v.active := by
    rw [hf]; exact ⟨rfl, rfl, rfl, rfl, rfl, rfl⟩
  obtain ⟨h1, h2, h3, h4, h5, h6⟩ := hends
  intro ha
  obtain ⟨hcur, hloop⟩ := h (h6 ▸ ha)
  rw [h1, h2, h3, h4, h5, v.fill_srcCur]
  unfold Voice.bytesLeft Voice.effEnd at hb
  cases hp : v.looping with
  | false =>
    rw [hp] at hb
    exact ⟨add_le_endAddress hcur hb, fun hx => by cases hx⟩
  | true =>
    rw [hp] at hb
    obtain ⟨l1, l2, l3, l4⟩ := hloop hp
    have hle := add_le_endAddress l4 hb
    exact ⟨hle.trans l3, fun _ => ⟨l1, l2, l3, hle⟩⟩

/-- A refill keeps the source in order (10_state.md R36 (I3)). -/
theorem Voice.refill_sourceOk {v : Voice} (h : v.SourceOk) (c : Config) (m : Memory) : (v.refill c m).SourceOk := by
  rcases v.refill_cases c m with ⟨-, h'⟩ | ⟨-, hl, h'⟩ | ⟨-, -, h'⟩ <;> rw [h']
  · exact Voice.fill_sourceOk h c m
  · refine Voice.fill_sourceOk (fun ha => ?_) c m
    obtain ⟨l1, l2, l3, -⟩ := (h ha).2 hl
    exact ⟨by simp only [Voice.rewind]; omega, fun _ => ⟨l1, l2, l3, by simp only [Voice.rewind]; omega⟩⟩
  · exact h

/-- What the start of the decoder changes: its state and the cursor (41_refill_adpcm.md R175, R179). -/
theorem Voice.adpcmStart_frame (v : Voice) (c : Config) (m : Memory) :
    v.adpcmStart c m = { v with srcCur := (v.adpcmStart c m).srcCur, ad := (v.adpcmStart c m).ad } := by
  unfold Voice.adpcmStart
  split <;> rfl

end Sys2Proof.Machine
end

