-- ==== Sys2Proof/Laws/Mixer.lean ====
section
/-! SUPPORT. The mixer (42_mixer.md): what one frame, the exhaustion loop, one voice's pass and the whole pass can do. -/

namespace Sys2Proof.Machine

/-- What the exhaustion loop changes: what a refill changes, and the position (42_mixer.md R208). -/
theorem exhaust_frame (c : Config) (m : Memory) : ∀ (left : Nat) (v : Voice),
    (exhaust c m left v).1 =
      { v with
        lbuf := (exhaust c m left v).1.lbuf, lcount := (exhaust c m left v).1.lcount
        srcCur := (exhaust c m left v).1.srcCur, ad := (exhaust c m left v).1.ad, pos := (exhaust c m left v).1.pos } := by
  intro left
  induction left with
  | zero => intro v; unfold exhaust; split <;> rfl
  | succ left ih =>
    intro v
    unfold exhaust
    split
    · rfl
    · simp only
      split
      · rw [Voice.refill_frame]; rfl
      · rw [ih, Voice.refill_frame]; rfl

/-- A property that refills keep, whatever the position, is kept by the exhaustion loop (42_mixer.md R208). -/
theorem exhaust_induct (c : Config) (m : Memory) (P : Voice → Prop)
    (hpos : ∀ (v : Voice) (p : BitVec 32), P v → P { v with pos := p }) (hrefill : ∀ v : Voice, P v → P (v.refill c m)) :
    ∀ (left : Nat) (v : Voice), P v → P (exhaust c m left v).1 := by
  intro left
  induction left with
  | zero =>
    intro v h
    unfold exhaust
    split
    · exact h
    · exact hpos v 0 h
  | succ left ih =>
    intro v h
    have h' : P (v.consumeBuffer.refill c m) := hrefill _ (hpos v _ h)
    unfold exhaust
    split
    · exact h
    · simp only
      split
      · exact hpos _ 0 h'
      · exact ih _ h'

/-- How the exhaustion loop ends (42_mixer.md R208, R209): still playing with the position inside the buffer; ended with an
empty buffer and position 0; or capped, with samples in the buffer and position 0. -/
theorem exhaust_end (c : Config) (m : Memory) : ∀ (left : Nat) (v : Voice), v.lcount ≠ 0 →
    ((exhaust c m left v).2.2 = .playing ∧ (exhaust c m left v).1.lcount ≠ 0 ∧
      (exhaust c m left v).1.posIndex < (exhaust c m left v).1.lcount.toNat) ∨
    ((exhaust c m left v).2.2 = .ended ∧ (exhaust c m left v).1.lcount = 0 ∧ (exhaust c m left v).1.pos = 0) ∨
    ((exhaust c m left v).2.2 = .capped ∧ (exhaust c m left v).1.lcount ≠ 0 ∧ (exhaust c m left v).1.pos = 0) := by
  intro left
  induction left with
  | zero =>
    intro v hv
    unfold exhaust
    split
    · rename_i h; exact .inl ⟨rfl, hv, h⟩
    · exact .inr (.inr ⟨rfl, hv, rfl⟩)
  | succ left ih =>
    intro v hv
    unfold exhaust
    split
    · rename_i h; exact .inl ⟨rfl, hv, h⟩
    · simp only
      split
      · rename_i h; exact .inr (.inl ⟨rfl, h, rfl⟩)
      · rename_i h; exact ih _ h

/-- At an exhausted buffer, with refills left, the position drops by the buffer's count and a refill follows; an empty refill
ends the voice, another one is looked at in its turn (42_mixer.md R208). -/
theorem exhaust_refill (c : Config) (m : Memory) (left : Nat) (v : Voice) (h : v.lcount.toNat ≤ v.posIndex) :
    exhaust c m (left + 1) v =
      if (v.consumeBuffer.refill c m).lcount = 0 then ({ v.consumeBuffer.refill c m with pos := 0 }, left, .ended)
      else exhaust c m left (v.consumeBuffer.refill c m) := by
  rw [exhaust, if_neg (by omega)]

/-- At an exhausted buffer with no refill left the position is 0 and the voice gets no more frames (42_mixer.md R209). -/
theorem exhaust_capped (c : Config) (m : Memory) (v : Voice) (h : v.lcount.toNat ≤ v.posIndex) :
    exhaust c m 0 v = ({ v with pos := 0 }, 0, .capped) := by
  rw [exhaust, if_neg (by omega)]

/-- A voice has one output per sample (42_mixer.md R204, R207). -/
@[simp] theorem State.heard_length (s : State) : ∀ (prev : Int) (xs : List Int), (s.heard prev xs).length = xs.length
  | _, [] => rfl
  | _, x :: xs => by simp [State.heard, State.heard_length s]

/-- Nothing happens at a frame that leaves the position inside the buffer (42_mixer.md R208). -/
theorem exhaust_inside (c : Config) (m : Memory) (left : Nat) (v : Voice) (h : v.posIndex < v.lcount.toNat) :
    exhaust c m left v = (v, left, .playing) := by
  cases left <;> simp [exhaust, h]

/-- One frame keeps everything of the voice but the filter memory and the position (42_mixer.md R206, R207). -/
theorem State.mixFrameVoice_frame (s : State) (v : Voice) :
    s.mixFrameVoice v = { v with lpPrev := (s.mixFrameVoice v).lpPrev, pos := (s.mixFrameVoice v).pos } := rfl

/-- A property of the voice that frames and refills keep is kept by a voice's pass (42_mixer.md R200). -/
theorem State.mixFrames_induct (s : State) (g : Nat × Nat) (P : Voice → Prop)
    (hpos : ∀ (v : Voice) (p : BitVec 32), P v → P { v with pos := p })
    (hlp : ∀ (v : Voice) (p : BitVec 8), P v → P { v with lpPrev := p })
    (hrefill : ∀ (v : Voice) (m : Memory), P v → P (v.refill s.cfg m)) :
    ∀ (n a left : Nat) (v : Voice) (m : Memory), P v → P (s.mixFrames g n a left v m).1 := by
  intro n
  induction n with
  | zero => intro a left v m h; exact h
  | succ n ih =>
    intro a left v m h
    have h1 : P (s.mixFrameVoice v) := hpos _ (s.mixFrameVoice v).pos (hlp v (s.mixFrameVoice v).lpPrev h)
    have h2 := exhaust_induct s.cfg (s.mixFrameMem g a v m) P hpos (fun w hw => hrefill w _ hw) left _ h1
    unfold State.mixFrames
    simp only
    split
    · rename_i v' left' he; rw [he] at h2; exact ih _ _ _ _ h2
    · rename_i v' x e hne he; rw [he] at h2; exact h2

/-- A property of MEM that every frame keeps is kept by a voice's pass (42_mixer.md R200). -/
theorem State.mixFrames_mem_induct (s : State) (g : Nat × Nat) (Q : Memory → Prop) (lo hi : Nat)
    (hframe : ∀ (a : Nat) (v : Voice) (m : Memory), lo ≤ a → a + 4 ≤ hi → Q m → Q (s.mixFrameMem g a v m)) :
    ∀ (n a left : Nat) (v : Voice) (m : Memory), lo ≤ a → a + 4 * n ≤ hi → Q m → Q (s.mixFrames g n a left v m).2.1 := by
  intro n
  induction n with
  | zero => intro a left v m _ _ h; exact h
  | succ n ih =>
    intro a left v m h1 h2 h
    have hm := hframe a v m h1 (by omega) h
    unfold State.mixFrames
    simp only
    split
    · exact ih _ _ _ _ (by omega) (by omega) hm
    · exact hm

/-- How a voice's pass ends (42_mixer.md R208, R209), for a voice with samples and its position inside them. -/
theorem State.mixFrames_end (s : State) (g : Nat × Nat) : ∀ (n a left : Nat) (v : Voice) (m : Memory),
    v.lcount ≠ 0 → v.posIndex < v.lcount.toNat →
    ((s.mixFrames g n a left v m).2.2 = .playing ∧ (s.mixFrames g n a left v m).1.lcount ≠ 0 ∧
      (s.mixFrames g n a left v m).1.posIndex < (s.mixFrames g n a left v m).1.lcount.toNat) ∨
    ((s.mixFrames g n a left v m).2.2 = .ended ∧ (s.mixFrames g n a left v m).1.lcount = 0 ∧
      (s.mixFrames g n a left v m).1.pos = 0) ∨
    ((s.mixFrames g n a left v m).2.2 = .capped ∧ (s.mixFrames g n a left v m).1.lcount ≠ 0 ∧
      (s.mixFrames g n a left v m).1.pos = 0) := by
  intro n
  induction n with
  | zero => intro a left v m h1 h2; exact .inl ⟨rfl, h1, h2⟩
  | succ n ih =>
    intro a left v m h1 h2
    have he := exhaust_end s.cfg (s.mixFrameMem g a v m) left (s.mixFrameVoice v) h1
    unfold State.mixFrames
    simp only
    generalize exhaust s.cfg (s.mixFrameMem g a v m) left (s.mixFrameVoice v) = r at he
    obtain ⟨v', left', e⟩ := r
    rcases he with ⟨h3, h4, h5⟩ | ⟨h3, h4, h5⟩ | ⟨h3, h4, h5⟩ <;> simp only at h3 h4 h5 <;> subst h3
    · exact ih _ _ _ _ h4 h5
    · exact .inr (.inl ⟨rfl, h4, h5⟩)
    · exact .inr (.inr ⟨rfl, h4, h5⟩)

/-- One voice's share of a pass (42_mixer.md R200): not taking part, played on, capped, or finalized. -/
theorem State.mixVoice_cases (s : State) (buf : Nat) (v : Voice) (acc : MixAcc) :
    (v.takesPart = false ∧ s.mixVoice buf v acc = (v, acc)) ∨
    (v.takesPart = true ∧ ∃ v' m, s.mixFrames (s.gains v) s.cfg.nf buf refillCap v acc.mem = (v', m, .playing) ∧
      s.mixVoice buf v acc = (v', { acc with mem := m })) ∨
    (v.takesPart = true ∧ ∃ v' m, s.mixFrames (s.gains v) s.cfg.nf buf refillCap v acc.mem = (v', m, .capped) ∧
      s.mixVoice buf v acc = (v', { acc with mem := m, flags := raiseFlag .refillCap acc.flags })) ∨
    (v.takesPart = true ∧ ∃ v' m, s.mixFrames (s.gains v) s.cfg.nf buf refillCap v acc.mem = (v', m, .ended) ∧
      s.mixVoice buf v acc =
        ({ v' with active := false },
         { mem := m, cbq := acc.cbq.enqueue v'.token, flags := enqueueFlags acc.cbq acc.flags, done := acc.done + 1 })) := by
  unfold State.mixVoice
  cases hp : v.takesPart with
  | false => exact .inl ⟨rfl, rfl⟩
  | true =>
    right
    simp only [if_true]
    generalize s.mixFrames (s.gains v) s.cfg.nf buf refillCap v acc.mem = r
    obtain ⟨v', m, e⟩ := r
    cases e
    · exact .inl ⟨by trivial, v', m, rfl, rfl⟩
    · exact .inr (.inr ⟨by trivial, v', m, rfl, rfl⟩)
    · exact .inr (.inl ⟨by trivial, v', m, rfl, rfl⟩)

/-- A pass over a longer table is the first voice's share, then the rest (42_mixer.md R203). -/
theorem State.mixVoices_cons (s : State) (buf : Nat) (v : Voice) (vs : List Voice) (acc : MixAcc) :
    s.mixVoices buf (v :: vs) acc =
      ((s.mixVoice buf v acc).1 :: (s.mixVoices buf vs (s.mixVoice buf v acc).2).1,
       (s.mixVoices buf vs (s.mixVoice buf v acc).2).2) := rfl

/-- A pass keeps the number of slots. -/
@[simp] theorem State.mixVoices_length (s : State) (buf : Nat) : ∀ (vs : List Voice) (acc : MixAcc),
    (s.mixVoices buf vs acc).1.length = vs.length
  | [], _ => rfl
  | v :: vs, acc => by simp [State.mixVoices_cons, State.mixVoices_length s buf vs]

/-- A property of single voices that a voice's share keeps is kept by the pass. -/
theorem State.mixVoices_forall (s : State) (buf : Nat) (P : Voice → Prop)
    (h : ∀ (v : Voice) (acc : MixAcc), P v → P (s.mixVoice buf v acc).1) : ∀ (vs : List Voice) (acc : MixAcc),
    (∀ v ∈ vs, P v) → ∀ v ∈ (s.mixVoices buf vs acc).1, P v
  | [], _, _ => by simp [State.mixVoices]
  | v :: vs, acc, hv => by
    rw [State.mixVoices_cons]
    intro w hw
    rcases List.mem_cons.1 hw with rfl | hw
    · exact h v acc (hv v (by simp))
    · exact State.mixVoices_forall s buf P h vs _ (fun u hu => hv u (by simp [hu])) w hw

/-- A property of the pass's accumulated effects that a voice's share keeps is kept by the pass. -/
theorem State.mixVoices_acc (s : State) (buf : Nat) (Q : MixAcc → Prop)
    (h : ∀ (v : Voice) (acc : MixAcc), Q acc → Q (s.mixVoice buf v acc).2) : ∀ (vs : List Voice) (acc : MixAcc),
    Q acc → Q (s.mixVoices buf vs acc).2
  | [], _, hq => hq
  | v :: vs, acc, hq => by
    rw [State.mixVoices_cons]
    exact State.mixVoices_acc s buf Q h vs _ (h v acc hq)

/-- The two ways `MIX` ends (42_mixer.md R200). -/
theorem execMix_cases (s : State) :
    (s.mixArgsOk = false ∧ execMix s = .next (s.fail .badArg)) ∨
    (s.mixArgsOk = true ∧ ∃ vs acc, s.mixVoices s.opAddr s.voices ⟨s.mixBed s.opAddr, s.cbq, s.errflags, 0⟩ = (vs, acc) ∧
      execMix s = .next (State.complete
        { s with voices := vs, mem := acc.mem, cbq := acc.cbq, errflags := acc.flags } (BitVec.ofNat 32 acc.done))) := by
  unfold execMix
  cases h : s.mixArgsOk with
  | false => exact .inl ⟨rfl, rfl⟩
  | true => exact .inr ⟨rfl, _, _, rfl, rfl⟩

/-- The bed of a pass (42_mixer.md R201) touches the buffer only. -/
theorem State.mixBed_read_other (s : State) {buf a : Nat} (h : a < buf ∨ buf + 4 * s.cfg.nf ≤ a) :
    (s.mixBed buf).read a = s.mem.read a := by
  unfold State.mixBed
  split
  · rfl
  · exact silenceFill_read_other _ _ _ _ (by omega)

/-- The bed of a pass keeps the canonical form. -/
theorem State.mixBed_wf (s : State) {buf : Nat} (hm : s.mem.wf) (h : buf + 4 * s.cfg.nf ≤ 2 ^ 32) : (s.mixBed buf).wf := by
  unfold State.mixBed
  split
  · exact hm
  · exact silenceFill_wf _ _ _ hm (by omega)

end Sys2Proof.Machine
end

