-- ==== Sys2Proof/Laws/Opl.lean ====
section
/-! SUPPORT. The OPL side (44_opl_allocator.md, 45_fm_register_mapper.md): what a scan finds, what a pass over the nine voices
leaves, and what each register-level operation changes. -/

namespace Sys2Proof.Machine

/-! ### The voice table as a vector -/

/-- The written OPL voice reads back. -/
@[simp] theorem Vector.get_set_same {α : Type} {n : Nat} (v : Vector α n) (k : Fin n) (x : α) : (v.set k x).get k = x := by
  simp [Vector.get_eq_getElem]

/-- Writing an OPL voice leaves the others alone. -/
theorem Vector.get_set_other {α : Type} {n : Nat} (v : Vector α n) {k j : Fin n} (x : α) (h : k ≠ j) :
    (v.set k x).get j = v.get j := by
  have : (k : Nat) ≠ j := fun hc => h (Fin.ext hc)
  simp [Vector.get_eq_getElem, this]

/-- Two tables with the same entries are the same. -/
theorem Vector.ext_get {α : Type} {n : Nat} {v w : Vector α n} (h : ∀ k : Fin n, v.get k = w.get k) : v = w := by
  ext i hi
  simpa [Vector.get_eq_getElem] using h ⟨i, hi⟩

/-- An entry of a table given by a function. -/
@[simp] theorem Vector.get_ofFn' {α : Type} {n : Nat} (f : Fin n → α) (k : Fin n) : (Vector.ofFn f).get k = f k := by
  simp [Vector.get_eq_getElem]

/-- Every OPL voice is in the scan order. -/
theorem mem_oplSlots (k : Fin 9) : k ∈ oplSlots := by revert k; decide

/-- The scan order is ascending (00_scope.md R16). -/
theorem oplSlots_sorted : oplSlots.Pairwise (· < ·) := by decide

/-! ### Scans -/

/-- In an ascending list `find?` gives the least element that satisfies the condition. -/
theorem find?_sorted {q : Fin 9 → Bool} : ∀ {l : List (Fin 9)}, l.Pairwise (· < ·) → ∀ {k : Fin 9},
    l.find? q = some k ↔ k ∈ l ∧ q k = true ∧ ∀ j ∈ l, j < k → q j = false
  | [], _, k => by simp
  | i :: l, hl, k => by
    obtain ⟨hi, hl'⟩ := List.pairwise_cons.1 hl
    cases hq : q i with
    | true =>
      rw [List.find?_cons_of_pos hq]
      constructor
      · rintro ⟨⟩
        refine ⟨by simp, hq, fun j hj hlt => ?_⟩
        rcases List.mem_cons.1 hj with rfl | hj
        · exact absurd hlt (lt_irrefl _)
        · exact absurd hlt (not_lt.2 (le_of_lt (hi j hj)))
      · rintro ⟨hk, -, h⟩
        rcases List.mem_cons.1 hk with rfl | hk
        · rfl
        · have := h i (by simp) (hi k hk)
          rw [hq] at this
          cases this
    | false =>
      rw [List.find?_cons_of_neg (by simp [hq]), find?_sorted hl']
      constructor
      · rintro ⟨hk, h1, h2⟩
        refine ⟨by simp [hk], h1, fun j hj hlt => ?_⟩
        rcases List.mem_cons.1 hj with rfl | hj
        · exact hq
        · exact h2 j hj hlt
      · rintro ⟨hk, h1, h2⟩
        rcases List.mem_cons.1 hk with rfl | hk
        · rw [hq] at h1; cases h1
        · exact ⟨hk, h1, fun j hj => h2 j (by simp [hj])⟩

/-- A scan finds the first voice in voice order that satisfies its condition (00_scope.md R16). -/
theorem State.firstSlot_eq_some {s : State} {p : OplVoice → Bool} {k : Fin 9} :
    s.firstSlot p = some k ↔ p (s.ovoices.get k) = true ∧ ∀ j, j < k → p (s.ovoices.get j) = false := by
  unfold State.firstSlot
  rw [find?_sorted oplSlots_sorted]
  exact ⟨fun ⟨_, h1, h2⟩ => ⟨h1, fun j => h2 j (mem_oplSlots j)⟩, fun ⟨h1, h2⟩ => ⟨mem_oplSlots k, h1, fun j _ => h2 j⟩⟩

/-- A scan that finds nothing: no voice satisfies its condition. -/
theorem State.firstSlot_eq_none {s : State} {p : OplVoice → Bool} :
    s.firstSlot p = none ↔ ∀ k, p (s.ovoices.get k) = false := by
  unfold State.firstSlot
  simp only [List.find?_eq_none]
  exact ⟨fun h k => by simpa using h k (mem_oplSlots k), fun h k _ => by simpa using h k⟩

/-! ### Passes over the nine voices -/

/-- A property that the body keeps is kept by a pass over the nine voices. -/
theorem State.forOplSlots_induct {s : State} {f : State → Fin 9 → State} (P : State → Prop) (h0 : P s)
    (hf : ∀ t k, P t → P (f t k)) : P (s.forOplSlots f) := by
  unfold State.forOplSlots
  generalize oplSlots = l
  induction l generalizing s with
  | nil => exact h0
  | cons k l ih => exact ih (hf s k h0)

/-- A pass whose body rewrites voice `k` from voice `k` alone and emits writes from voice `k` alone rewrites every voice and
emits the writes in voice order (00_scope.md R16). -/
theorem State.forOplSlots_eq (s : State) (f : State → Fin 9 → State) (g : Fin 9 → OplVoice → OplVoice)
    (w : Fin 9 → OplVoice → List (Byte × Byte))
    (hf : ∀ (ov : Vector OplVoice 9) (log : List (Byte × Byte)) (k : Fin 9),
      f { s with ovoices := ov, oplw := log } k =
        { s with ovoices := ov.set k (g k (ov.get k)), oplw := log ++ w k (ov.get k) }) :
    s.forOplSlots f =
      { s with
        ovoices := Vector.ofFn fun k => g k (s.ovoices.get k)
        oplw := s.oplw ++ oplSlots.flatMap fun k => w k (s.ovoices.get k) } := by
  have key : ∀ (l : List (Fin 9)), l.Nodup → ∀ (ov : Vector OplVoice 9) (log : List (Byte × Byte)),
      l.foldl f { s with ovoices := ov, oplw := log } =
        { s with
          ovoices := Vector.ofFn fun k => if k ∈ l then g k (ov.get k) else ov.get k
          oplw := log ++ l.flatMap fun k => w k (ov.get k) } := by
    intro l
    induction l with
    | nil =>
      intro _ ov log
      have : ov = Vector.ofFn fun k => ov.get k := Vector.ext_get fun k => by simp
      simpa using this
    | cons k l ih =>
      intro hn ov log
      have hk : k ∉ l := (List.nodup_cons.1 hn).1
      rw [List.foldl_cons, hf, ih (List.nodup_cons.1 hn).2]
      congr 1
      · refine Vector.ext_get fun j => ?_
        simp only [Vector.get_ofFn']
        by_cases hj : j = k
        · subst hj; simp [hk]
        · rw [Vector.get_set_other _ _ (Ne.symm hj)]
          simp [hj]
      · rw [List.flatMap_cons, List.append_assoc]
        congr 2
        have : ∀ j ∈ l, w j ((ov.set k (g k (ov.get k))).get j) = w j (ov.get j) := by
          intro j hj
          rw [Vector.get_set_other _ _ (fun hc => hk (by rw [hc]; exact hj))]
        exact List.flatMap_congr this
  have := key oplSlots (by decide) s.ovoices s.oplw
  unfold State.forOplSlots
  refine this.trans ?_
  simp only [mem_oplSlots, if_true]

/-- The same for a pass over the voices that meet a condition. -/
theorem State.forOplSlots_if_eq (s : State) (c : OplVoice → Bool) (f : State → Fin 9 → State)
    (g : Fin 9 → OplVoice → OplVoice) (w : Fin 9 → OplVoice → List (Byte × Byte))
    (hf : ∀ (ov : Vector OplVoice 9) (log : List (Byte × Byte)) (k : Fin 9), c (ov.get k) = true →
      f { s with ovoices := ov, oplw := log } k =
        { s with ovoices := ov.set k (g k (ov.get k)), oplw := log ++ w k (ov.get k) }) :
    s.forOplSlots (fun t k => if c (t.ovoices.get k) then f t k else t) =
      { s with
        ovoices := Vector.ofFn fun k => if c (s.ovoices.get k) then g k (s.ovoices.get k) else s.ovoices.get k
        oplw := s.oplw ++ oplSlots.flatMap fun k => if c (s.ovoices.get k) then w k (s.ovoices.get k) else [] } := by
  refine State.forOplSlots_eq s _ (fun k o => if c o then g k o else o) (fun k o => if c o then w k o else []) ?_
  intro ov log k
  simp only
  by_cases h : c (ov.get k) = true
  · simp only [h, if_true]; exact hf ov log k h
  · have : ov.set k (ov.get k) = ov := by
      refine Vector.ext_get fun j => ?_
      by_cases hj : k = j
      · subst hj; simp
      · rw [Vector.get_set_other _ _ hj]
    simp [h, this]

/-! ### Register-level operations -/

/-- `KeyOff(k)` (44_opl_allocator.md R255): the key-on bit and one write. -/
theorem State.keyOff_eq (s : State) (k : Fin 9) :
    s.keyOff k =
      { s with
        ovoices := s.ovoices.set k { s.ovoices.get k with keyon := false }
        oplw := s.oplw ++ [(voiceReg 0xB0 k, keyByte false (s.ovoices.get k).pitch)] } := rfl

/-- A release (44_opl_allocator.md R258): `KeyOff(k)` and the active bit. -/
theorem State.release_eq (s : State) (k : Fin 9) :
    s.release k =
      { s with
        ovoices := s.ovoices.set k { s.ovoices.get k with keyon := false, active := false }
        oplw := s.oplw ++ [(voiceReg 0xB0 k, keyByte false (s.ovoices.get k).pitch)] } := rfl

/-- `SetVoiceTimbre(k, i)` (45_fm_register_mapper.md R296) makes eleven writes and rewrites voice `k`'s levels and timbre. -/
theorem State.setVoiceTimbre_eq (s : State) (k : Fin 9) (i : BitVec 8) :
    s.setVoiceTimbre k i =
      { s with
        ovoices := s.ovoices.set k
          { s.ovoices.get k with
            lvlMod := loudness (s.tbByte i 2)
            kslMod := s.tbByte i 2 &&& 0xC0
            lvlCar := loudness (s.tbByte i 3)
            kslCar := s.tbByte i 3 &&& 0xC0
            timbre := some i }
        oplw := s.oplw ++ s.timbreWrites k i } := rfl

/-- Eleven writes (45_fm_register_mapper.md R296). -/
theorem State.timbreWrites_length (s : State) (k : Fin 9) (i : BitVec 8) : (s.timbreWrites k i).length = 11 := rfl

/-- `SetVoiceVolume(k)` (45_fm_register_mapper.md R298) emits writes and changes no voice. -/
theorem State.setVoiceVolume_cases (s : State) (k : Fin 9) :
    (∃ i, (s.ovoices.get k).timbre = some i ∧ s.setVoiceVolume k = { s with oplw := s.oplw ++ s.volumeWrites k i }) ∨
    ((s.ovoices.get k).timbre = none ∧ s.setVoiceVolume k = s) := by
  unfold State.setVoiceVolume
  cases h : (s.ovoices.get k).timbre with
  | none => exact .inr ⟨rfl, rfl⟩
  | some i => exact .inl ⟨i, rfl, rfl⟩

/-- `SetVoicePitch(k)` (45_fm_register_mapper.md R300) rewrites voice `k`'s pitch and makes two writes. -/
theorem State.setVoicePitch_cases (s : State) (k : Fin 9) :
    (∃ i, (s.ovoices.get k).timbre = some i ∧
      s.setVoicePitch k =
        { s with
          ovoices := s.ovoices.set k { s.ovoices.get k with pitch := s.voicePitch (s.ovoices.get k) i }
          oplw := s.oplw ++
            [(voiceReg 0xA0 k, freqByte (s.voicePitch (s.ovoices.get k) i)),
             (voiceReg 0xB0 k, keyByte (s.ovoices.get k).keyon (s.voicePitch (s.ovoices.get k) i))] }) ∨
    ((s.ovoices.get k).timbre = none ∧ s.setVoicePitch k = s) := by
  unfold State.setVoicePitch
  cases h : (s.ovoices.get k).timbre with
  | none => exact .inr ⟨rfl, by simp [h]⟩
  | some i =>
    refine .inl ⟨i, rfl, ?_⟩
    simp only [h, State.oplWrite, State.setOvoice, List.append_assoc, List.cons_append, List.nil_append]

/-- The OPL side and its log are all that differs. -/
def State.SameButOpl (s t : State) : Prop := t = { s with ovoices := t.ovoices, oplw := t.oplw }

/-- Every state agrees with itself. -/
theorem State.SameButOpl.refl (s : State) : s.SameButOpl s := rfl

/-- Agreement composes. -/
theorem State.SameButOpl.trans {s t u : State} (h1 : s.SameButOpl t) (h2 : t.SameButOpl u) : s.SameButOpl u := by
  unfold State.SameButOpl at *
  rw [h2, h1]

/-- A key-off is on the OPL side. -/
theorem State.keyOff_same (s : State) (k : Fin 9) : s.SameButOpl (s.keyOff k) := rfl

/-- A release is on the OPL side. -/
theorem State.release_same (s : State) (k : Fin 9) : s.SameButOpl (s.release k) := rfl

/-- Claiming a voice is on the OPL side. -/
theorem State.setOvoice_same (s : State) (k : Fin 9) (o : OplVoice) : s.SameButOpl (s.setOvoice k o) := rfl

/-- Programming a timbre is on the OPL side. -/
theorem State.setVoiceTimbre_same (s : State) (k : Fin 9) (i : BitVec 8) : s.SameButOpl (s.setVoiceTimbre k i) := rfl

/-- Writing a level is on the OPL side. -/
theorem State.setVoiceVolume_same (s : State) (k : Fin 9) : s.SameButOpl (s.setVoiceVolume k) := by
  rcases s.setVoiceVolume_cases k with ⟨i, -, h⟩ | ⟨-, h⟩ <;> rw [h] <;> rfl

/-- Writing a frequency is on the OPL side. -/
theorem State.setVoicePitch_same (s : State) (k : Fin 9) : s.SameButOpl (s.setVoicePitch k) := by
  rcases s.setVoicePitch_cases k with ⟨i, -, h⟩ | ⟨-, h⟩ <;> rw [h] <;> rfl

/-- Starting a note (44_opl_allocator.md R257) is on the OPL side. -/
theorem State.startNote_same (s : State) (k : Fin 9) (ch : BitVec 4) (key vel : BitVec 7) (tim : BitVec 8) :
    s.SameButOpl (s.startNote k ch key vel tim) := by
  unfold State.startNote
  extract_lets s1 o1 s2 s3 s4 o4 s5
  have h1 : s.SameButOpl s1 := by unfold s1; split <;> rfl
  have h2 : s.SameButOpl s2 := h1.trans (State.setOvoice_same _ k _)
  have h3 : s.SameButOpl s3 := by
    unfold s3
    split
    · exact h2
    · exact h2.trans (State.setVoiceTimbre_same _ k _)
  have h4 : s.SameButOpl s4 := h3.trans (State.setVoiceVolume_same _ k)
  have h5 : s.SameButOpl s5 := h4.trans (State.setOvoice_same _ k _)
  exact h5.trans (State.setVoicePitch_same _ k)

/-- A pass over the nine voices whose body is on the OPL side is on the OPL side. -/
theorem State.forOplSlots_same {s : State} {f : State → Fin 9 → State} (hf : ∀ (t : State) (k : Fin 9), t.SameButOpl (f t k)) :
    s.SameButOpl (s.forOplSlots f) :=
  State.forOplSlots_induct (fun t => s.SameButOpl t) (State.SameButOpl.refl s) fun t k h => State.SameButOpl.trans h (hf t k)

/-- `TB_VALID` and a programmed voice, as `OVVOLUME` and `OVPITCH` ask for (44_opl_allocator.md R256). -/
theorem State.programmed_iff (s : State) (k : Fin 9) :
    s.programmed k = true ↔ s.tbValid = true ∧ ∃ i, (s.ovoices.get k).timbre = some i := by
  unfold State.programmed
  rw [Bool.and_eq_true, Option.isSome_iff_exists]

/-- The slot an inline `vo` names (30_encoding.md R108). -/
theorem voSlot_cases (vo : BitVec 4) :
    (∃ k : Fin 9, voSlot vo = some k ∧ k.val = vo.toNat) ∨ (9 ≤ vo.toNat ∧ voSlot vo = none) := by
  unfold voSlot
  split
  · rename_i h; exact .inl ⟨⟨vo.toNat, h⟩, rfl, rfl⟩
  · rename_i h; exact .inr ⟨by omega, rfl⟩

end Sys2Proof.Machine
end

