-- ==== Sys2Proof/Laws/PerInstr.lean ====
section
/-! SUPPORT. The statement made of every command: its encoding matches the row of the opcode table (30_encoding.md R111) that
carries its mnemonic, whatever its fields. -/

namespace Sys2Proof

/-- The mnemonic of a command (30_encoding.md R111). -/
def Instr.mnemonic : Instr → String
  | .nop => "NOP"
  | .reset => "RESET"
  | .clrerr _ => "CLRERR"
  | .alloc => "ALLOC"
  | .play _ => "PLAY"
  | .stop => "STOP"
  | .stopall => "STOPALL"
  | .setpan => "SETPAN"
  | .setpitch => "SETPITCH"
  | .setfreq => "SETFREQ"
  | .isplaying => "ISPLAYING"
  | .countplaying => "COUNTPLAYING"
  | .hasfree => "HASFREE"
  | .setmastervol _ => "SETMASTERVOL"
  | .setrevstereo _ => "SETREVSTEREO"
  | .setlpf _ _ _ => "SETLPF"
  | .setmusicgen _ => "SETMUSICGEN"
  | .mix => "MIX"
  | .drain => "DRAIN"
  | .cback => "CBACK"
  | .tbload => "TBLOAD"
  | .oplreset => "OPLRESET"
  | .oplalloff => "OPLALLOFF"
  | .setmusicvol _ => "SETMUSICVOL"
  | .ovfind _ _ => "OVFIND"
  | .ovalloc _ _ => "OVALLOC"
  | .ovtimbre _ _ => "OVTIMBRE"
  | .ovvolume _ => "OVVOLUME"
  | .ovpitch _ => "OVPITCH"
  | .noteoff _ _ _ => "NOTEOFF"
  | .noteon _ _ _ => "NOTEON"
  | .keypressure _ _ _ => "KEYPRESSURE"
  | .controller _ _ _ => "CONTROLLER"
  | .progchange _ _ => "PROGCHANGE"
  | .chanpressure _ _ => "CHANPRESSURE"
  | .pitchbend _ _ _ => "PITCHBEND"

namespace Laws.EncodesItsRow

/-- The command's encoding matches a row of the opcode table, and that row has the command's mnemonic. -/
def Statement (i : Instr) : Prop := ∃ r ∈ opcodeTable, r.mnemonic = i.mnemonic ∧ r.matches (encode i) = true

theorem nop : Statement .nop :=
  ⟨_, List.mem_of_getElem? (i := 0) rfl, rfl, by decide⟩

theorem reset : Statement .reset :=
  ⟨_, List.mem_of_getElem? (i := 1) rfl, rfl, by decide⟩

theorem clrerr (imm8 : BitVec 8) : Statement (.clrerr imm8) :=
  ⟨_, List.mem_of_getElem? (i := 2) rfl, rfl, 
    matches_packFields _ _ 0x02 0 0 0 0xFF 0xFF 0xFF 0x00 _ _ _ _
      (by decide) (by decide) (by decide) (and_zero_mask _)⟩

theorem alloc : Statement .alloc :=
  ⟨_, List.mem_of_getElem? (i := 3) rfl, rfl, by decide⟩

theorem play (fmt : BitVec 4) : Statement (.play fmt) :=
  ⟨_, List.mem_of_getElem? (i := 4) rfl, rfl, 
    matches_packFields _ _ 0x11 0 0 0 0xFF 0xFF 0xFF 0xF0 _ _ _ _
      (by decide) (by decide) (by decide) (nibble_high_zero _)⟩

theorem stop : Statement .stop :=
  ⟨_, List.mem_of_getElem? (i := 5) rfl, rfl, by decide⟩

theorem stopall : Statement .stopall :=
  ⟨_, List.mem_of_getElem? (i := 6) rfl, rfl, by decide⟩

theorem setpan : Statement .setpan :=
  ⟨_, List.mem_of_getElem? (i := 7) rfl, rfl, by decide⟩

theorem setpitch : Statement .setpitch :=
  ⟨_, List.mem_of_getElem? (i := 8) rfl, rfl, by decide⟩

theorem setfreq : Statement .setfreq :=
  ⟨_, List.mem_of_getElem? (i := 9) rfl, rfl, by decide⟩

theorem isplaying : Statement .isplaying :=
  ⟨_, List.mem_of_getElem? (i := 10) rfl, rfl, by decide⟩

theorem countplaying : Statement .countplaying :=
  ⟨_, List.mem_of_getElem? (i := 11) rfl, rfl, by decide⟩

theorem hasfree : Statement .hasfree :=
  ⟨_, List.mem_of_getElem? (i := 12) rfl, rfl, by decide⟩

theorem setmastervol (imm8 : BitVec 8) : Statement (.setmastervol imm8) :=
  ⟨_, List.mem_of_getElem? (i := 13) rfl, rfl, 
    matches_packFields _ _ 0x1A 0 0 0 0xFF 0xFF 0xFF 0x00 _ _ _ _
      (by decide) (by decide) (by decide) (and_zero_mask _)⟩

theorem setrevstereo (imm1 : Bool) : Statement (.setrevstereo imm1) :=
  ⟨_, List.mem_of_getElem? (i := 14) rfl, rfl, 
    matches_packFields _ _ 0x1B 0 0 0 0xFF 0xFF 0xFF 0xFE _ _ _ _
      (by decide) (by decide) (by decide) (bit_high_zero _)⟩

/-- The must-be-zero bits of format L (30_encoding.md R102). -/
theorem setlpf_matches (en : Bool) (beta alpha : BitVec 9) :
    OpRow.matches ⟨"SETLPF", 0x1C000000, 0xFFF80000, fun w => .setlpf (w.getLsbD 18) (w.extractLsb' 9 9) (w.extractLsb' 0 9)⟩
      (encode (.setlpf en beta alpha)) = true := by
  have h : encode (.setlpf en beta alpha) &&& (0xFF#8 ++ 0x1F#5 ++ 0#1 ++ 0#9 ++ 0#9) = (0x1C#8 ++ 0#5 ++ 0#1 ++ 0#9 ++ 0#9 : Word) := by
    simp only [encode]
    rw [BitVec.and_append, BitVec.and_append, BitVec.and_append, BitVec.and_append]
    simp
  unfold OpRow.matches
  rw [show (0xFFF80000 : Word) = 0xFF#8 ++ 0x1F#5 ++ 0#1 ++ 0#9 ++ 0#9 from by decide, h]
  decide

theorem setlpf (en : Bool) (beta alpha : BitVec 9) : Statement (.setlpf en beta alpha) :=
  ⟨_, List.mem_of_getElem? (i := 15) rfl, rfl, setlpf_matches en beta alpha⟩

theorem setmusicgen (imm1 : Bool) : Statement (.setmusicgen imm1) :=
  ⟨_, List.mem_of_getElem? (i := 16) rfl, rfl, 
    matches_packFields _ _ 0x1D 0 0 0 0xFF 0xFF 0xFF 0xFE _ _ _ _
      (by decide) (by decide) (by decide) (bit_high_zero _)⟩

theorem mix : Statement .mix :=
  ⟨_, List.mem_of_getElem? (i := 17) rfl, rfl, by decide⟩

theorem drain : Statement .drain :=
  ⟨_, List.mem_of_getElem? (i := 18) rfl, rfl, by decide⟩

theorem cback : Statement .cback :=
  ⟨_, List.mem_of_getElem? (i := 19) rfl, rfl, by decide⟩

theorem tbload : Statement .tbload :=
  ⟨_, List.mem_of_getElem? (i := 20) rfl, rfl, by decide⟩

theorem oplreset : Statement .oplreset :=
  ⟨_, List.mem_of_getElem? (i := 21) rfl, rfl, by decide⟩

theorem oplalloff : Statement .oplalloff :=
  ⟨_, List.mem_of_getElem? (i := 22) rfl, rfl, by decide⟩

theorem setmusicvol (imm8 : BitVec 8) : Statement (.setmusicvol imm8) :=
  ⟨_, List.mem_of_getElem? (i := 23) rfl, rfl, 
    matches_packFields _ _ 0x33 0 0 0 0xFF 0xFF 0xFF 0x00 _ _ _ _
      (by decide) (by decide) (by decide) (and_zero_mask _)⟩

theorem ovfind (qch : BitVec 4) (key : BitVec 7) : Statement (.ovfind qch key) :=
  ⟨_, List.mem_of_getElem? (i := 24) rfl, rfl, 
    matches_packFields _ _ 0x34 0 0 0 0xFF 0xF0 0x80 0xFF _ _ _ _
      (by decide) (nibble_high_zero _) (septet_high_zero _) (by decide)⟩

theorem ovalloc (qch : BitVec 4) (tim : BitVec 8) : Statement (.ovalloc qch tim) :=
  ⟨_, List.mem_of_getElem? (i := 25) rfl, rfl, 
    matches_packFields _ _ 0x35 0 0 0 0xFF 0xF0 0x00 0xFF _ _ _ _
      (by decide) (nibble_high_zero _) (and_zero_mask _) (by decide)⟩

theorem ovtimbre (qch : BitVec 4) (tim : BitVec 8) : Statement (.ovtimbre qch tim) :=
  ⟨_, List.mem_of_getElem? (i := 26) rfl, rfl, 
    matches_packFields _ _ 0x36 0 0 0 0xFF 0xF0 0x00 0xFF _ _ _ _
      (by decide) (nibble_high_zero _) (and_zero_mask _) (by decide)⟩

theorem ovvolume (vo : BitVec 4) : Statement (.ovvolume vo) :=
  ⟨_, List.mem_of_getElem? (i := 27) rfl, rfl, 
    matches_packFields _ _ 0x37 0 0 0 0xFF 0xF0 0xFF 0xFF _ _ _ _
      (by decide) (nibble_high_zero _) (by decide) (by decide)⟩

theorem ovpitch (vo : BitVec 4) : Statement (.ovpitch vo) :=
  ⟨_, List.mem_of_getElem? (i := 28) rfl, rfl, 
    matches_packFields _ _ 0x38 0 0 0 0xFF 0xF0 0xFF 0xFF _ _ _ _
      (by decide) (nibble_high_zero _) (by decide) (by decide)⟩

theorem noteoff (ch : BitVec 4) (d1 d2 : BitVec 7) : Statement (.noteoff ch d1 d2) :=
  ⟨_, List.mem_of_getElem? (i := 29) rfl, rfl, 
    matches_packFields _ _ 0x80 0 0 0 0xF0 0x80 0x80 0xFF _ _ _ _
      (status_kind _ _) (septet_high_zero _) (septet_high_zero _) (by decide)⟩

theorem noteon (ch : BitVec 4) (d1 d2 : BitVec 7) : Statement (.noteon ch d1 d2) :=
  ⟨_, List.mem_of_getElem? (i := 30) rfl, rfl, 
    matches_packFields _ _ 0x90 0 0 0 0xF0 0x80 0x80 0xFF _ _ _ _
      (status_kind _ _) (septet_high_zero _) (septet_high_zero _) (by decide)⟩

theorem keypressure (ch : BitVec 4) (d1 d2 : BitVec 7) : Statement (.keypressure ch d1 d2) :=
  ⟨_, List.mem_of_getElem? (i := 31) rfl, rfl, 
    matches_packFields _ _ 0xA0 0 0 0 0xF0 0x80 0x80 0xFF _ _ _ _
      (status_kind _ _) (septet_high_zero _) (septet_high_zero _) (by decide)⟩

theorem controller (ch : BitVec 4) (d1 d2 : BitVec 7) : Statement (.controller ch d1 d2) :=
  ⟨_, List.mem_of_getElem? (i := 32) rfl, rfl, 
    matches_packFields _ _ 0xB0 0 0 0 0xF0 0x80 0x80 0xFF _ _ _ _
      (status_kind _ _) (septet_high_zero _) (septet_high_zero _) (by decide)⟩

theorem progchange (ch : BitVec 4) (d1 : BitVec 7) : Statement (.progchange ch d1) :=
  ⟨_, List.mem_of_getElem? (i := 33) rfl, rfl, 
    matches_packFields _ _ 0xC0 0 0 0 0xF0 0x80 0xFF 0xFF _ _ _ _
      (status_kind _ _) (septet_high_zero _) (by decide) (by decide)⟩

theorem chanpressure (ch : BitVec 4) (d1 : BitVec 7) : Statement (.chanpressure ch d1) :=
  ⟨_, List.mem_of_getElem? (i := 34) rfl, rfl, 
    matches_packFields _ _ 0xD0 0 0 0 0xF0 0x80 0xFF 0xFF _ _ _ _
      (status_kind _ _) (septet_high_zero _) (by decide) (by decide)⟩

theorem pitchbend (ch : BitVec 4) (d1 d2 : BitVec 7) : Statement (.pitchbend ch d1 d2) :=
  ⟨_, List.mem_of_getElem? (i := 35) rfl, rfl, 
    matches_packFields _ _ 0xE0 0 0 0 0xF0 0x80 0x80 0xFF _ _ _ _
      (status_kind _ _) (septet_high_zero _) (septet_high_zero _) (by decide)⟩

end Laws.EncodesItsRow

end Sys2Proof
end

