-- ==== Sys2Proof/Laws/Step.lean ====
section
/-! SUPPORT. One step (10_state.md R20): every way it can answer a next state. -/

namespace Sys2Proof.Machine

/-- A step answers a next state by doing nothing, with no host access planned, or by the first planned access. -/
theorem step_cases {s t : State} (h : step s = .next t) :
    s.cfg.wf = true ∧
      ((s.hostq = [] ∧ t = s) ∨ ∃ a rest, s.hostq = a :: rest ∧ a.apply { s with hostq := rest } = .next t) := by
  unfold step State.advanceHost at h
  cases hc : s.cfg.wf with
  | false => rw [hc] at h; cases h
  | true =>
    refine ⟨rfl, ?_⟩
    rw [hc] at h
    cases hq : s.hostq with
    | nil => rw [hq] at h; cases h; exact .inl ⟨rfl, rfl⟩
    | cons a rest => rw [hq] at h; exact .inr ⟨a, rest, rfl, h⟩

/-- With a host access planned and parameters in range, a step is that access. -/
theorem step_cons {s : State} {a : HostAction} {rest : List HostAction} (hc : s.cfg.wf = true) (hq : s.hostq = a :: rest) :
    step s = a.apply { s with hostq := rest } := by
  unfold step State.advanceHost
  rw [hc, hq]
  rfl

/-- A write of `CMD` while MDAE is not busy runs the command (10_state.md R25). -/
theorem step_cmd {s : State} {w : Word} {rest : List HostAction} (hc : s.cfg.wf = true) (hb : s.busy = false)
    (hq : s.hostq = .regWrite 0x00 w :: rest) : step s = State.runCommand { s with hostq := rest } w := by
  rw [step_cons hc hq]
  have h1 : regAligned 0x00 = true := rfl
  have h2 : regOperand 0x00 = none := rfl
  simp only [HostAction.apply, State.regWrite, h1, h2, State.writeCmd, hb, if_true]
  rfl

/-- The byte offset of operand register `i` (10_state.md R24). -/
theorem regOperand_operand (i : Fin 16) : regOperand (BitVec.ofNat 8 (0x40 + 4 * i.val)) = some i := by
  fin_cases i <;> rfl

/-- The byte offset of an operand register is a multiple of 4 (10_state.md R24). -/
theorem regAligned_operand (i : Fin 16) : regAligned (BitVec.ofNat 8 (0x40 + 4 * i.val)) = true := by
  fin_cases i <;> rfl

/-- Only the offsets 0x40 to 0x7F are operand registers (10_state.md R24). -/
theorem regOperand_none {off : BitVec 8} (h : off.toNat < 0x40 ∨ 0x80 ≤ off.toNat) : regOperand off = none := by
  unfold regOperand
  rw [if_neg (by omega)]

/-- Every way a host access answers a next state (10_state.md R20, R24, R25, R49). -/
theorem HostAction.apply_cases {a : HostAction} {s t : State} (h : a.apply s = .next t) :
    (∃ off data i, a = .regWrite off data ∧ regOperand off = some i ∧ s.busy = false ∧ t = { s with x := s.x.set i data }) ∨
    (∃ w, a = .regWrite 0 w ∧ s.busy = true ∧ t = s.flag .overrun) ∨
    (∃ w, a = .regWrite 0 w ∧ s.busy = false ∧ s.runCommand w = .next t) ∨
    (∃ off data, a = .regWrite off data ∧ t = s) ∨
    (∃ d n, t = { s with hostData := d, freeCtr := n }) ∨
    (∃ addr b, a = .memWrite addr b ∧ t = { s with mem := s.mem.write addr.toNat b }) ∨
    (a = .hwReset ∧ t = s.hardwareReset) := by
  cases a with
  | regWrite off data =>
    simp only [HostAction.apply, State.regWrite] at h
    split at h
    · cases ho : regOperand off with
      | some i =>
        rw [ho] at h
        cases hb : s.busy with
        | true => rw [hb] at h; cases h
        | false => rw [hb] at h; cases h; exact .inl ⟨off, data, i, rfl, ho, rfl, rfl⟩
      | none =>
        rw [ho] at h
        simp only at h
        split at h
        · rename_i h0
          subst h0
          unfold State.writeCmd at h
          cases hb : s.busy with
          | true => rw [hb] at h; cases h; exact .inr (.inl ⟨data, rfl, rfl, rfl⟩)
          | false => rw [hb] at h; exact .inr (.inr (.inl ⟨data, rfl, rfl, h⟩))
        · cases h; exact .inr (.inr (.inr (.inl ⟨off, data, rfl, rfl⟩)))
    · cases h
  | regRead off =>
    simp only [HostAction.apply, State.regRead] at h
    split at h
    · split at h
      · cases h
      · split at h
        · cases h; exact .inr (.inr (.inr (.inr (.inl ⟨_, _, rfl⟩))))
        · cases h; exact .inr (.inr (.inr (.inr (.inl ⟨_, s.freeCtr, rfl⟩))))
    · cases h
  | regNarrow off n => cases h
  | memWrite addr b => cases h; exact .inr (.inr (.inr (.inr (.inr (.inl ⟨addr, b, rfl, rfl⟩)))))
  | memRead addr => cases h; exact .inr (.inr (.inr (.inr (.inl ⟨_, s.freeCtr, rfl⟩))))
  | hwReset => cases h; exact .inr (.inr (.inr (.inr (.inr (.inr ⟨rfl, rfl⟩)))))

/-- A command runs the decoded instruction, or fails with `E_BADCMD`, and ends with `BUSY = 0` (30_encoding.md R112). -/
theorem State.runCommand_cases {s t : State} {w : Word} (h : s.runCommand w = .next t) :
    ∃ u, t = { u with busy := false } ∧
      ((∃ i, decode w = .ok i ∧ exec i { s with busy := true } = .next u) ∨
       (∃ e, decode w = .error e ∧ u = State.fail { s with busy := true } .badCmd)) := by
  unfold State.runCommand at h
  cases hd : decode w with
  | ok i =>
    rw [hd] at h
    obtain ⟨u, hu, ht⟩ := clearBusy_eq_next h
    exact ⟨u, ht, .inl ⟨i, rfl, hu⟩⟩
  | error e =>
    rw [hd] at h
    cases h
    exact ⟨_, rfl, .inr ⟨e, rfl, rfl⟩⟩

end Sys2Proof.Machine
end

