-- ==== Sys2Proof/Tests/Slice0.lean ====
section
/-! SUPPORT. Tests of one step each, from the vectors of 95_test_vectors.md or by hand from the rule a test names; the smoke
tests of WellFormed; the decoding of a hand-written word for every command; and for every statement with hypotheses a witness
that meets them. -/

namespace Sys2Proof.Tests

open Sys2Proof Sys2Proof.Machine

-- The theorems below are checked one after another: side by side each kernel evaluation reserves a thread's memory.
set_option Elab.async false

/-! ### Helpers -/

/-- Operand registers from a list, the rest 0. -/
def words (xs : List Int) : Vector Word 16 := Vector.ofFn fun i => BitVec.ofInt 32 (xs.getD i 0)

/-- Memory with the given bytes from address `a` up. -/
def bytesAt (a : Nat) (bs : List Nat) (m : Memory := []) : Memory :=
  (bs.zipIdx a).foldl (fun m b => m.write b.2 (BitVec.ofNat 8 b.1)) m

/-- A fresh machine with these operands. -/
def fresh (xs : List Int) : State := { State.reset with x := words xs }

/-- What `f` reads off the next state, if there is one. -/
def after {α : Type} (i : Instr) (s : State) (f : State → α) : Option α :=
  match exec i s with
  | .next t => some (f t)
  | _       => none

/-- The host plans one access, on a fresh machine. -/
def planned (a : HostAction) : State := { State.reset with hostq := [a] }

/-- Result, error code and sticky flags. -/
def report (t : State) : Nat × Nat × Nat := (t.res.toNat, t.err.toNat, t.errflags.toNat)

/-- The operands of the standard play of 95_test_vectors.md 2.2. -/
def standardPlay (prio token : Int) (len : Int := 16) : List Int := [0x1000, len, 22050, 0, 64, 0, 0, prio, token]

/-- A slot that sounds, in the middle of a non-looping 8-bit source at `0x1000`. -/
def sounding (gen : Nat) (prio token : Int) : Voice := { Voice.reset with
  active := true, gen := BitVec.ofNat 24 gen, prio := BitVec.ofInt 32 prio, token := BitVec.ofInt 32 token
  lcount := 16, lbuf := List.replicate 256 1, srcCur := 0x1010, srcEnd := 0x1010
  baseRate := 22050, step := 65536, volL := 255, volR := 255 }

/-- A full pool with these priorities, generations 1 to 4, tokens 0xC0 to 0xC3. -/
def pool (p0 p1 p2 p3 : Int) (xs : List Int) : State := { State.reset with
  x := words xs, gen := 4
  voices := [sounding 1 p0 0xC0, sounding 2 p1 0xC1, sounding 3 p2 0xC2, sounding 4 p3 0xC3] }

/-- A fresh machine whose slot 0 holds `v`. -/
def withVoice (v : Voice) (xs : List Int) : State := { fresh xs with
  voices := [v, Voice.reset, Voice.reset, Voice.reset], gen := 1 }

/-- Bank P3 of 95_test_vectors.md 2.7: timbres 0, 5 and 164. -/
def bankP3 : List Byte :=
  [0x21, 0x21, 0x8F, 0x00, 0xF2, 0xF2, 0x45, 0x76, 0x00, 0x00, 0x08, 0x00, 0x00] ++ List.replicate 52 0 ++
  [0x01, 0x02, 0x10, 0x45, 0xA1, 0xB2, 0xC3, 0xD4, 0x01, 0x02, 0x07, 0x0C, 0xF6] ++ List.replicate 2054 0 ++
  [0x0F, 0x00, 0x00, 0x0A, 0xF8, 0xF6, 0x77, 0x68, 0x00, 0x00, 0x0E, 0x24, 0x00] ++ List.replicate 1183 0

/-- The loaded engine of 95_test_vectors.md 2.7. -/
def loaded : State := { State.reset with tb := bankP3, tbValid := true }

/-- A voice programmed with timbre 0, sounding note (0, 60). -/
def note60 : OplVoice := { OplVoice.reset with
  active := true, key := 60, velocity := 127, timbre := some 0, keyon := true, pitch := 0x1157
  lvlMod := 48, lvlCar := 63, kslMod := 0x80 }

/-- A voice programmed with timbre 5, sounding note (1, 72) with velocity 100. -/
def note72 : OplVoice := { OplVoice.reset with
  active := true, channel := 1, key := 72, velocity := 100, timbre := some 5, keyon := true, pitch := 0x1957
  lvlMod := 47, lvlCar := 58, kslCar := 0x40 }

/-- The loaded engine with OPL voices 0 and 1 sounding (program P3 after step 6). -/
def twoNotes : State := { loaded with ovoices := (loaded.ovoices.set 0 note60).set 1 note72 }

/-- The same, and channel 1 at volume 80 (program P3 after step 8). -/
def quieter : State := { twoNotes with chans := twoNotes.chans.set 1 { Channel.reset standardConfig with volume := 80 } }

/-- The OPL writes since the log was empty, as numbers. -/
def writes (t : State) : List (Nat × Nat) := t.oplw.map fun p => (p.1.toNat, p.2.toNat)

/-- The frames of the sink buffer at `a`. -/
def frames (a n : Nat) (t : State) : List (Int × Int) :=
  (List.range n).map fun f => ((t.mem.read16 (a + 4 * f)).toInt, (t.mem.read16 (a + 4 * f + 2)).toInt)

/-- The buffered samples of slot 0. -/
def buffered (t : State) : List Int :=
  (t.voices.take 1).flatMap fun v => (v.lbuf.take v.lcount.toNat).map (·.toInt)

/-- The parameters with two frames to a buffer and variant `v`. -/
def small (v : AdpcmVariant) : Config := { standardConfig with nf := 2, variant := v }

/-! ### WellFormed: a term that each check refuses, beside one it takes -/

theorem test_wf_fmt : (Instr.play 0x5).wellFormed = false ∧ (Instr.play 0x6).wellFormed = false ∧
    (Instr.play 0xC).wellFormed = true := by decide

theorem test_wf_lpf_alpha : (Instr.setlpf true 0 257).wellFormed = false := by decide

theorem test_wf_lpf_beta : (Instr.setlpf true 257 0).wellFormed = false := by decide

theorem test_wf_lpf_sum : (Instr.setlpf true 128 129).wellFormed = false ∧
    (Instr.setlpf true 128 128).wellFormed = true := by decide

theorem test_wf_vo : (Instr.ovtimbre 9 0).wellFormed = false ∧ (Instr.ovvolume 9).wellFormed = false ∧
    (Instr.ovpitch 15).wellFormed = false ∧ (Instr.ovpitch 8).wellFormed = true := by decide

theorem test_wf_config : Config.wf { standardConfig with nv := 0 } = false ∧
    Config.wf { standardConfig with modOff := List.replicate 9 0 } = false ∧ standardConfig.wf = true := by decide +kernel

/-! ### Decoding: one hand-written word of 30_encoding.md R102 and R111 for every command -/

theorem test_decode_system :
    decode 0b00000000_00000000_00000000_00000000 = .ok .nop ∧
    decode 0b00000001_00000000_00000000_00000000 = .ok .reset ∧
    decode 0b00000010_00000000_00000000_10100101 = .ok (.clrerr 0xA5) := by decide +kernel

theorem test_decode_voice_pool :
    decode 0x10000000 = .ok .alloc ∧
    decode 0b00010001_00000000_00000000_00001011 = .ok (.play 0b1011) ∧
    decode 0x12000000 = .ok .stop ∧ decode 0x13000000 = .ok .stopall ∧ decode 0x14000000 = .ok .setpan ∧
    decode 0x15000000 = .ok .setpitch ∧ decode 0x16000000 = .ok .setfreq ∧ decode 0x17000000 = .ok .isplaying ∧
    decode 0x18000000 = .ok .countplaying ∧ decode 0x19000000 = .ok .hasfree := by decide +kernel

theorem test_decode_settings :
    decode 0x1A000080 = .ok (.setmastervol 128) ∧ decode 0x1B000001 = .ok (.setrevstereo true) ∧
    decode 0b00011100_00000_1_110000000_001000000 = .ok (.setlpf true 384 64) ∧
    decode 0x1C058040 = .ok (.setlpf true 192 64) ∧
    decode 0x1D000000 = .ok (.setmusicgen false) := by decide +kernel

theorem test_decode_mixer_and_queue :
    decode 0x20000000 = .ok .mix ∧ decode 0x21000000 = .ok .drain ∧ decode 0x22000000 = .ok .cback := by decide +kernel

theorem test_decode_opl :
    decode 0x30000000 = .ok .tbload ∧ decode 0x31000000 = .ok .oplreset ∧ decode 0x32000000 = .ok .oplalloff ∧
    decode 0x33000080 = .ok (.setmusicvol 128) ∧
    decode 0b00110100_0000_0101_0_0111100_00000000 = .ok (.ovfind 5 60) ∧
    decode 0x350FFF00 = .ok (.ovalloc 15 255) ∧ decode 0x36020500 = .ok (.ovtimbre 2 5) ∧
    decode 0x37010000 = .ok (.ovvolume 1) ∧ decode 0x38080000 = .ok (.ovpitch 8) := by decide +kernel

theorem test_decode_midi :
    decode 0b1000_0011_0_0111100_0_1000000_00000000 = .ok (.noteoff 3 60 64) ∧
    decode 0x91486400 = .ok (.noteon 1 72 100) ∧ decode 0xA03C4000 = .ok (.keypressure 0 60 64) ∧
    decode 0xB1075000 = .ok (.controller 1 7 80) ∧ decode 0xCF7F0000 = .ok (.progchange 15 127) ∧
    decode 0xD9400000 = .ok (.chanpressure 9 64) ∧ decode 0xE2014000 = .ok (.pitchbend 2 1 64) := by decide +kernel

/-- The reserved words of V-ENC. -/
theorem test_decode_reserved :
    ([0x00000001, 0x02000100, 0x03000000, 0x0F000000, 0x1E000000, 0x23000000, 0x39000000, 0x7F000000, 0xF0000000,
      0xFF000000, 0x11000010, 0x1A000100, 0x1B000002, 0x1C080000, 0x34008000, 0x34100000, 0x35000001, 0x37000100,
      0x90BC7F00, 0x903C8000, 0x903C7F01, 0xC0050100, 0xD9404000] : List Word).all
      (fun w => opcodeTable.all fun r => !r.matches w) = true := by decide +kernel

theorem test_decode_error_kinds :
    decode 0x03000000 = .error (.reservedOpcode 0x03) ∧ decode 0x11000010 = .error (.mustBeZeroBits 0x11) ∧
    decodeBytes [0, 0, 0] = .error (.notOneWord 3) := by decide +kernel

theorem test_decode_table_word : decodeTableWord 32 0x913C7F00 = some (.noteon 1 60 127) := by decide +kernel

/-! ### System commands -/

theorem test_nop : after .nop { State.reset with err := 3, errflags := 7, res := 9 } report = some (0, 0, 7) := by
  decide +kernel

/-- V-SYS-2. -/
theorem test_reset : after .reset { fresh [0x1000] with gen := 1, masterVol := 16, oplw := [(1, 2)] }
    (fun t => [t.gen.toNat, t.masterVol.toNat, t.oplw.length, (t.x.get 0).toNat]) = some [0, 255, 1, 0x1000] := by
  decide +kernel

/-- The example of 46_system.md R332. -/
theorem test_clrerr : after (.clrerr 0x08) { State.reset with errflags := 0x28 } report = some (0x28, 0, 0x20) := by
  decide +kernel

/-! ### Voice pool -/

/-- T2. -/
theorem test_alloc : after .alloc (pool 3 1 1 5 [0, 0, 0, 0, 0, 0, 0, 2]) report = some (1, 0, 0) ∧
    after .alloc (pool 3 1 1 5 [0, 0, 0, 0, 0, 0, 0, 1]) report = some (0xFFFFFFFF, 0, 0) := by decide +kernel

/-- V-VPA-3. -/
theorem test_hasfree : after .hasfree (pool (-5) (-2) (-7) (-7) [0, 0, 0, 0, 0, 0, 0, -6]) report = some (1, 0, 0) ∧
    after .hasfree (pool (-5) (-2) (-7) (-7) [0, 0, 0, 0, 0, 0, 0, -7]) report = some (0, 0, 0) := by decide +kernel

/-- V-VPA-4: the steal. -/
theorem test_play_steals : after (.play 0) (pool 2 2 2 2 (standardPlay 3 0xC5))
    (fun t => (report t, t.cbq.count, t.cbq.ent.get 0, (t.voices.map (·.token)).head?)) =
    some ((0x500, 0, 0), 1, 0xC0, some 0xC5) := by decide +kernel

/-- V-ADP-A3: the initialization byte of variant A. -/
theorem test_play_adpcm : after (.play 4) { fresh [0x1000, 3, 22050, 0, 64] with mem := bytesAt 0x1000 [0x40, 0x19, 0] }
    (fun t => (report t, buffered t)) = some ((0x100, 0, 0), [-63, -64, -64, -64]) := by decide +kernel

theorem test_stop : after .stop (pool 1 1 1 1 [0x201])
    (fun t => (report t, t.voices.map (·.active), t.cbq.count)) = some ((0, 0, 0), [true, false, true, true], 0) := by
  decide +kernel

/-- V-VPA-5: a stale handle. -/
theorem test_stop_stale : after .stop (pool 1 1 1 1 [0x301]) report = some (0, 3, 4) := by decide +kernel

theorem test_stopall : after .stopall (pool 1 1 1 1 []) (fun t => (t.voices.map (·.active), t.cbq.count, t.gen)) =
    some ([false, false, false, false], 0, 4) := by decide +kernel

/-- V-VPA-1: no fallback while one side is positive. -/
theorem test_setpan : after .setpan (pool 1 1 1 1 [0x100, 0, 0, 0, 10, -3, 20])
    (fun t => (t.voices.map fun v => (v.volL.toNat, v.volR.toNat)).head?) = some (some (0, 80)) := by decide +kernel

/-- V-VPA-8: pitch -100 at 11025 Hz truncates toward zero. -/
theorem test_setpitch : after .setpitch (withVoice { sounding 1 0 0 with baseRate := 11025 } [0x100, 0, 0, -100])
    (fun t => (t.voices.map fun v => (v.step.toNat, v.pitch.toInt)).head?) = some (some (31169, -100)) := by decide +kernel

/-- V-VPA-8. -/
theorem test_setfreq :
    after .setfreq (withVoice { sounding 1 0 0 with pitch := BitVec.ofInt 32 (-100) } [0x100, 0, 44100])
      (fun t => (t.voices.map fun v => (v.step.toNat, v.baseRate.toNat)).head?) = some (some (124673, 44100)) := by
  decide +kernel

theorem test_isplaying : after .isplaying (pool 1 1 1 1 [0x403]) report = some (1, 0, 0) ∧
    after .isplaying (pool 1 1 1 1 [0x504]) report = some (0, 3, 4) := by decide +kernel

theorem test_countplaying : after .countplaying (withVoice (sounding 1 0 0) []) report = some (1, 0, 0) := by
  decide +kernel

theorem test_setmastervol : after (.setmastervol 128) State.reset (·.masterVol) = some 128 := by decide +kernel

theorem test_setrevstereo : after (.setrevstereo true) State.reset (fun t => t.readReg 0x10) = some 1 := by decide +kernel

/-- V-ENC. -/
theorem test_setlpf : after (.setlpf true 128 128) State.reset (fun t => (t.readReg 0x1C, t.readReg 0x10)) =
    some (0x00800080, 2) := by decide +kernel

theorem test_setmusicgen : after (.setmusicgen true) State.reset (fun t => t.readReg 0x10) = some 4 := by decide +kernel

/-! ### Refill, mixer, callback queue -/

/-- V-RFL-3: 16-bit sources give their high bytes. -/
theorem test_refill_16_bit :
    after (.play 3) { fresh (standardPlay 0 0 8) with
        mem := bytesAt 0x1000 [0x34, 0x12, 0x00, 0x80, 0xFF, 0x7F, 0xFF, 0xFF] } buffered =
      some [18, -128, 127, -1] := by decide +kernel

/-- V-ADP-B2: clamps and the floor of variant B. -/
theorem test_adpcm_b : ((adpcmDecodeB standardConfig ⟨0, 0, 0, 32000, 88⟩ 7).1.pred.toInt,
    (adpcmDecodeB standardConfig ⟨0, 0, 0, 32767, 88⟩ 15).2.toInt,
    (adpcmDecodeB standardConfig ⟨0, 0, 0, BitVec.ofInt 16 (-1), 0⟩ 8).2.toInt) = (32767, -112, -1) := by decide +kernel

/-- V-MIX-1: one sample, one frame, then the end and its token. -/
theorem test_mix_ends_voice :
    after .mix { withVoice { sounding 1 0 0x77 with lcount := 1, lbuf := 127 :: List.replicate 255 0 } [0x2000] with
        cfg := small .a }
      (fun t => (frames 0x2000 2 t, report t, t.voices.map (·.active), t.cbq.count, t.cbq.ent.get 0)) =
      some ([(16129, 16129), (0, 0)], (1, 0, 0), [false, false, false, false], 1, 0x77) := by decide +kernel

/-- V-MIX-7, lower clamp: the accumulation saturates on the bed. -/
theorem test_mix_clamps :
    after .mix { withVoice { sounding 1 0 0 with lbuf := List.replicate 256 (BitVec.ofInt 8 (-128)) } [0x2000] with
        cfg := small .a, musicGen := true, mem := bytesAt 0x2000 [0xD0, 0x8A, 0, 0] } (frames 0x2000 1) =
      some [(-32768, -16256)] := by decide +kernel

/-- V-CBQ-5, and a nested drain. -/
theorem test_drain :
    after .drain { State.reset with cbq := ⟨(Vector.replicate 32 0).set 0 0xA1, 0, 2, 2⟩ }
      (fun t => (t.res, t.readReg 0x04, t.readReg 0x20, t.cbToken)) = some (1, 6, 0x07020101, 0xA1) ∧
    after .drain { State.reset with draining := true, cbValid := true, drainLeft := 7 } report = some (0, 0, 0) := by
  decide +kernel

/-- V-CBQ-5 and V-CBQ-2: the last token closes the session, and so does the cap. -/
theorem test_cback :
    after .cback { State.reset with draining := true, cbValid := true, drainLeft := 6 }
      (fun t => (t.res, t.readReg 0x04, t.readReg 0x20)) = some (0, 0, 0) ∧
    after .cback { State.reset with draining := true, cbValid := true, drainLeft := 0, cbq := ⟨Vector.replicate 32 0, 8, 0, 24⟩ }
      (fun t => (t.res, t.readReg 0x04, t.readReg 0x20)) = some (0, 0, 0x00000818) := by decide +kernel

/-! ### FM register mapper and OPL allocator -/

/-- V-OVA-4: the sounding note is released, and the voices are unprogrammed. -/
theorem test_tbload :
    after .tbload { twoNotes with x := words [0x8000], mem := bytesAt 0x8000 [0x21] }
      (fun t => (writes t, t.ovoices.toList.all (fun o => !o.active && o.timbre.isNone), t.tb.head?, t.tb.length)) =
      some ([(0xB0, 0x11), (0xB1, 0x19)], true, some 0x21, 3328) := by decide +kernel

theorem test_tbload_range : after .tbload (fresh [0xFFFFF301]) report = some (0, 2, 2) := by decide +kernel

theorem test_oplreset : after .oplreset twoNotes (fun t => (writes t, t.ovoices.get 1, (t.chans.get 3).keyOffset.toInt)) =
    some ([(0xB0, 0), (0xB1, 0), (0xB2, 0), (0xB3, 0), (0xB4, 0), (0xB5, 0), (0xB6, 0), (0xB7, 0), (0xB8, 0)],
      OplVoice.reset, -12) := by decide +kernel

theorem test_oplalloff : after .oplalloff twoNotes (fun t => (writes t, t.res)) =
    some ([(0xB0, 0x11), (0xB1, 0x19)], 2) := by decide +kernel

/-- Program P3 step 8 (the volume writes of an additive timbre). -/
theorem test_setmusicvol :
    after (.setmusicvol 128) quieter (fun t => (writes t).drop 1) = some [(0x44, 0x70), (0x41, 0x33)] := by decide +kernel

theorem test_ovfind : after (.ovfind 1 72) twoNotes (·.res) = some 1 ∧
    after (.ovfind 0 72) twoNotes (·.res) = some 0xFFFFFFFF := by decide +kernel

/-- 44_opl_allocator.md R252: an idle voice with the timbre goes before a lower idle voice. -/
theorem test_ovalloc : after (.ovalloc 3 5) { loaded with
    ovoices := loaded.ovoices.set 4 { OplVoice.reset with timbre := some 5 } } (·.res) = some 4 ∧
    after (.ovalloc 3 7) twoNotes (·.res) = some 2 := by decide +kernel

/-- Program P3 step 20. -/
theorem test_ovtimbre : after (.ovtimbre 2 5) loaded writes =
    some [(0x45, 0x3F), (0x22, 0x01), (0x42, 0x10), (0x62, 0xA1), (0x82, 0xC3), (0xE2, 0x01), (0xC2, 0x07), (0x25, 0x02),
      (0x65, 0xB2), (0x85, 0xD4), (0xE5, 0x02)] := by decide +kernel

/-- Program P3 step 8. -/
theorem test_ovvolume : after (.ovvolume 1) quieter writes = some [(0x44, 0x61), (0x41, 0x26)] ∧
    after (.ovvolume 2) quieter report = some (0, 5, 0x10) := by decide +kernel

/-- Program P3 step 18, with key-on. -/
theorem test_ovpitch : after (.ovpitch 1) twoNotes (fun t => (writes t, t.res)) =
    some ([(0xA1, 0x57), (0xB1, 0x39)], 0x1957) := by decide +kernel

/-- Program P3 step 7. -/
theorem test_noteoff : after (.noteoff 0 60 0) twoNotes (fun t => (writes t, t.res, (t.ovoices.get 0).active)) =
    some ([(0xB0, 0x11)], 0, false) := by decide +kernel

/-- Program P3 step 4: a repeated note. -/
theorem test_noteon_repeated : after (.noteon 0 60 64) twoNotes (fun t => (writes t, t.res, (t.ovoices.get 0).velocity)) =
    some ([(0xB0, 0x11), (0x43, 0x11), (0xA0, 0x57), (0xB0, 0x31)], 0, 64) := by decide +kernel

/-- Program P3 step 10: percussion. -/
theorem test_noteon_percussion : after (.noteon 9 36 127) twoNotes (fun t => (writes t, t.res)) =
    some ([(0x45, 0x3F), (0x22, 0x0F), (0x42, 0x00), (0x62, 0xF8), (0x82, 0x77), (0xE2, 0x00), (0xC2, 0x0E), (0x25, 0x00),
      (0x65, 0xF6), (0x85, 0x68), (0xE5, 0x00), (0x45, 0x0B), (0xA2, 0x57), (0xB2, 0x29)], 2) := by decide +kernel

theorem test_keypressure : after (.keypressure 0 60 64) twoNotes (fun t => t.oplw) = some [] := by decide +kernel

theorem test_chanpressure : after (.chanpressure 0 60) twoNotes (fun t => t.oplw) = some [] := by decide +kernel

/-- Program P3 step 8. -/
theorem test_controller_volume : after (.controller 1 7 80) twoNotes (fun t => (writes t, (t.chans.get 1).volume)) =
    some ([(0x44, 0x61), (0x41, 0x26)], 80) := by decide +kernel

/-- Program P3 step 13. -/
theorem test_controller_notes_off :
    after (.controller 1 123 0) twoNotes (fun t => (writes t, t.ovoices.toList.map (·.active))) =
      some ([(0xB1, 0x19)], [true, false, false, false, false, false, false, false, false]) := by decide +kernel

theorem test_progchange : after (.progchange 15 127) twoNotes (fun t => ((t.chans.get 15).timbre, t.oplw)) =
    some (127, []) := by decide +kernel

/-- Program P3 step 12. -/
theorem test_pitchbend : after (.pitchbend 1 0 64) twoNotes (fun t => (writes t, (t.chans.get 1).bend)) =
    some ([(0xA1, 0x57), (0xB1, 0x39)], 8192) := by decide +kernel

/-! ### The host port -/

/-- V-ENC: a reserved word fails. -/
theorem test_step_reserved_word :
    (match step (planned (.regWrite 0 0x00000001)) with
      | .next t => some (report t)
      | _       => none) = some (0, 1, 1) := by decide +kernel

theorem test_step_narrow_access : step (planned (.regNarrow 0 1)) = .refused .regAccessNotAlignedWord := by rfl

/-- `withFetchWord` makes the very next step run the word. -/
theorem test_with_fetch_word :
    (match step (State.reset.withFetchWord 32 0x1A000080) with
      | .next t => some t.masterVol
      | _       => none) = some 128 := by decide +kernel

/-! ### Witnesses: for every statement with hypotheses, a state and operands that meet them together -/

/-- A machine about to run the command word `w`. -/
def aboutTo (w : Word) : State := planned (.regWrite 0x00 w)

/-- A machine after a looping play, in the middle of a run. -/
def looping : Voice := { sounding 1 3 0xAA with looping := true, srcCur := 0x1008, loopStart := 0x1004, loopEnd := 0x1008 }

/-- A good state with work in it: a sounding voice, a looping voice, an idle one that was used, a queued token, and a `MIX`
that the host is about to write. -/
def busyPool : State := { State.reset with
  voices := [sounding 5 1 0xA1, { looping with gen := 2 }, { sounding 3 1 7 with active := false }, Voice.reset]
  gen := 5, x := words [0x2000], cbq := ⟨(Vector.replicate 32 0).set 31 0xA0, 31, 0, 1⟩, hostq := [cmd .mix] }

theorem test_witness_EncodeOfDecode : decode 0x911111_00 = .ok (.noteon 1 17 17) ∧ decode 0 = .ok .nop := by decide +kernel

theorem test_witness_ReservedWordFails :
    ([0x03, 0x0F, 0x1E, 0x1F, 0x23, 0x2F, 0x39, 0x7F, 0xF0, 0xFF] : List Nat).all (fun op =>
      opcodeTable.all fun r => BitVec.ofNat 32 (op * 2 ^ 24) &&& r.mask != r.value) = true ∧
    (aboutTo 0xF0000000).cfg.wf = true ∧ (aboutTo 0xF0000000).busy = false ∧
    (∀ r ∈ opcodeTable, (0xF0000000 : Word) &&& r.mask ≠ r.value) := by decide +kernel

theorem test_witness_StepRunsDecodedCommand : (aboutTo 0x1100000B).cfg.wf = true ∧ (aboutTo 0x1100000B).busy = false ∧
    (aboutTo 0x1100000B).hostq = [.regWrite 0x00 0x1100000B] ∧ decode 0x1100000B = .ok (.play 0xB) := by decide +kernel

theorem test_witness_RegistersReadTheirFields : State.reset.cfg.wf = true ∧ State.reset.readReg 0x80 = 0 ∧
    State.reset.readReg 0xFC = 0 ∧ (fresh [1]).readReg 0x40 = 1 ∧ State.reset.readReg 0x2C = 0x20004 := by decide +kernel

/-- The boundary offsets of the ignored writes and of the reads. -/
theorem test_witness_RegisterAccessRules :
    ([0x04, 0x3C, 0x80, 0xFC] : List (BitVec 8)).all (fun off =>
      let s := planned (.regWrite off 5)
      s.cfg.wf && !s.busy && off.toNat % 4 == 0 && off != 0 && (off.toNat < 0x40 || 0x80 ≤ off.toNat)) = true ∧
    (planned (.regRead 0x00)).busy = false ∧ (planned (.regRead 0xFC)).hostq = [.regRead 0xFC] := by decide +kernel

theorem test_witness_LdxStoresTheOperand : (planned (ldx 15 7)).hostq = ldx 15 7 :: [] ∧ (planned (ldx 0 7)).busy = false ∧
    (planned (ldx 0 7)).cfg.wf = true := by decide +kernel

theorem test_witness_BusyCommandIsDropped : (State.cfg { aboutTo 0 with busy := true }).wf = true ∧
    (State.hostq { aboutTo 0 with busy := true }) = .regWrite 0x00 0 :: [] := by decide +kernel

theorem test_witness_ByteOrderIsLittleEndian : Memory.wf [(0, 1), (2 ^ 32 - 1, 5)] ∧ 0 + 1 < 2 ^ 32 ∧
    2 ^ 32 - 2 + 1 < 2 ^ 32 := by decide +kernel

theorem test_witness_HostAccessesMemory :
    (planned (.memWrite 0xFFFFFFFF 0)).cfg.wf = true ∧ (planned (.memWrite 0xFFFFFFFF 0)).mem.wf ∧
    (planned (.memWrite 0xFFFFFFFF 0)).hostq = .memWrite 0xFFFFFFFF 0 :: [] ∧
    (planned (.memRead 0)).hostq = .memRead 0 :: [] := by decide +kernel

theorem test_witness_HardwareResetDiffersInTwoPoints : (planned .hwReset).cfg.wf = true ∧
    (planned .hwReset).hostq = .hwReset :: [] := by decide +kernel

/-- The hypothesis `Inv` of the whole-machine and mixer statements, in a state with sounding, looping and idle voices. -/
theorem busyPool_inv : busyPool.Inv := by
  constructor <;> decide +kernel

theorem test_witness_StepKeepsTheInvariant : busyPool.Inv ∧ ∃ t, step busyPool = .next t := ⟨busyPool_inv, _, rfl⟩

/-- Both clauses: an access that is not an aligned word, and one that is aligned at the last word offset. -/
theorem test_witness_GoodStatesStepSafely :
    State.Inv { busyPool with hostq := [.regRead 0xFE] } ∧ (∃ a ∈ (planned (.regRead 0xFE)).hostq.head?, a.Misaligned) ∧
    State.Inv { busyPool with hostq := [.regRead 0xFC] } ∧ ∀ a ∈ (planned (.regRead 0xFC)).hostq.head?, ¬a.Misaligned := by
  refine ⟨by constructor <;> decide +kernel, ⟨_, rfl, by unfold HostAction.Misaligned; decide⟩,
    by constructor <;> decide +kernel, ?_⟩
  rintro a ⟨rfl⟩
  unfold HostAction.Misaligned; decide

theorem test_witness_StepKeepsGenerationsDistinct : busyPool.GensDistinct ∧ busyPool.gen ≠ 0xFFFFFF ∧
    ∃ t, step busyPool = .next t := ⟨by decide +kernel, by decide +kernel, _, rfl⟩

theorem test_witness_StepKeepsGenerationsDistinct_last : State.GensDistinct { busyPool with gen := 0xFFFFFE } ∧
    State.gen { busyPool with gen := 0xFFFFFE } ≠ 0xFFFFFF ∧ ∃ t, step { busyPool with gen := 0xFFFFFE } = .next t :=
  ⟨by decide +kernel, by decide +kernel, _, rfl⟩

/-- Each clause of `FailsWith` at a boundary of its range: a play of no byte, a full pool, buffers just out of range, the
filter's bounds, voice 9, an unloaded bank, an unprogrammed voice, a null handle. -/
theorem test_witness_CommandsFailExactlyWhenListed :
    State.FailsWith (fresh [0x1000, 0]) (.play 0) .badArg ∧
    State.FailsWith (pool 1 1 1 1 (standardPlay 1 0)) (.play 0) .noVoice ∧
    State.FailsWith (fresh [1]) .mix .badArg ∧ State.FailsWith (fresh [0xFFFFFFE4]) .mix .badArg ∧
    ¬State.FailsWith (fresh [0xFFFFFFE0]) .mix .badArg ∧
    State.FailsWith State.reset (.setlpf true 0 257) .badArg ∧ ¬State.FailsWith State.reset (.setlpf true 0 256) .badArg ∧
    State.FailsWith (fresh [0xFFFFF301]) .tbload .badArg ∧ ¬State.FailsWith (fresh [0xFFFFF300]) .tbload .badArg ∧
    State.FailsWith State.reset (.ovtimbre 9 0) .badArg ∧ State.FailsWith State.reset (.ovtimbre 8 0) .noTimbre ∧
    State.FailsWith State.reset (.noteon 0 60 1) .noTimbre ∧ ¬State.FailsWith State.reset (.noteon 0 60 0) .noTimbre := by
  refine ⟨?_, ?_, ?_, ?_, ?_, ?_, ?_, ?_, ?_, ?_, ?_, ?_, ?_⟩ <;> (unfold State.FailsWith; decide +kernel)

theorem test_witness_CommandsFailExactlyWhenListed_voices :
    State.FailsWith loaded (.ovvolume 8) .noTimbre ∧ State.FailsWith State.reset (.ovpitch 0) .noTimbre ∧
    State.FailsWith loaded (.ovvolume 9) .badArg ∧ State.FailsWith loaded (.ovpitch 15) .badArg :=
  ⟨⟨8, by decide +kernel⟩, ⟨0, by decide +kernel⟩, by unfold State.FailsWith; decide, by unfold State.FailsWith; decide⟩

/-- A null handle fails every command that takes a handle: whatever slot it could name, the generation is 0. -/
theorem test_witness_CommandsFailExactlyWhenListed_handles :
    State.FailsWith State.reset .stop .badHandle ∧ State.FailsWith State.reset .isplaying .badHandle := by
  have h : ¬∃ i v, State.reset.HandleAt i v := by
    rintro ⟨i, v, -, -, -, hg, hx⟩
    have h0 : State.reset.x.get 0 = 0 := by decide +kernel
    rw [h0, BitVec.toNat_eq, BitVec.toNat_append, ← Nat.shiftLeft_add_eq_or_of_lt (BitVec.ofNat 8 i).isLt] at hx
    exact hg (BitVec.eq_of_toNat_eq (by rw [Nat.shiftLeft_eq] at hx; simp at hx ⊢; omega))
  exact ⟨h, h⟩

theorem test_witness_CommandsWriteOnlyTheirOwnState : (∃ t, exec (.noteon 0 60 127) loaded = .next t) ∧
    ∃ t, exec .mix busyPool = .next t := ⟨⟨_, rfl⟩, ⟨_, rfl⟩⟩

theorem test_witness_OnlyMixWritesMemory : (∃ t, exec .mix busyPool = .next t) ∧ 0x1FFF < (busyPool.x.get 0).toNat ∧
    (busyPool.x.get 0).toNat + 4 * busyPool.cfg.nf ≤ 0x2020 := ⟨⟨_, rfl⟩, by decide +kernel⟩

theorem test_witness_LogsOnlyGrow : ∃ t, exec .drain busyPool = .next t := ⟨_, rfl⟩

theorem test_witness_StickyFlagsStaySet : (∃ t, exec .nop { busyPool with errflags := 0xFF } = .next t) ∧
    (∀ n, Instr.nop ≠ .clrerr n) ∧ Instr.nop ≠ .reset := ⟨⟨_, rfl⟩, by simp, by decide⟩

theorem test_witness_NopClrerrAndHintsResult : (0 : BitVec 7) ≠ 7 ∧ (0 : BitVec 7) ≠ 10 ∧ (127 : BitVec 7) ≠ 123 := by
  decide

theorem test_witness_SettingsResult : (256#9).toNat + (0#9).toNat ≤ 256 ∧ 256 < (256#9).toNat + (1#9).toNat := by decide

/-- The three answers of the arbiter: a free slot, a slot to steal (the lower of two of the lowest priority), none. -/
theorem test_witness_AllocAndHasfreeResult :
    busyPool.ArbiterGives (busyPool.x.get 7).toInt 2 { sounding 3 1 7 with active := false } ∧
    (pool 3 1 1 5 (standardPlay 2 0)).PoolFull 1 ∧ ¬(pool 3 1 1 5 (standardPlay 2 0)).PoolFull 2 := by
  refine ⟨⟨by decide +kernel, .inl ⟨by decide +kernel, ?_⟩⟩, by decide +kernel, by decide +kernel⟩
  intro j w hj hw
  interval_cases j <;> (cases hw; rfl)

theorem arbiter_steals : (pool 3 1 1 5 (standardPlay 2 0)).ArbiterGives 2 1 (sounding 2 1 0xC1) := by
  refine ⟨by decide +kernel, .inr ⟨by decide +kernel, by decide +kernel, by decide +kernel, ?_⟩⟩
  intro j w hj hw
  interval_cases j
  cases hw; decide +kernel

/-- A play that steals, and one that loops in a free slot. -/
theorem test_witness_PlayStartsTheVoice :
    ¬(pool 3 1 1 5 (standardPlay 2 0)).PlayRejects 0 ∧
    (pool 3 1 1 5 (standardPlay 2 0)).ArbiterGives ((pool 3 1 1 5 (standardPlay 2 0)).x.get 7).toInt 1 (sounding 2 1 0xC1) ∧
    ¬(fresh [0xFFFFFFFC, 4, 0, 0, 0, 0, 0, 0, 0, 1, 4]).PlayRejects 0xC :=
  ⟨by decide +kernel, arbiter_steals, by decide +kernel⟩

theorem test_witness_StopAndPlayingQueriesResult : (pool 1 1 1 1 [0x403]).HandleAt 3 (sounding 4 1 0xC3) ∧
    (pool 1 1 1 1 [0x201]).HandleAt 1 (sounding 2 1 0xC1) := by decide +kernel

theorem test_witness_SetpanSetpitchSetfreqResult :
    (pool 1 1 1 1 [0x100]).HandleAt 0 (sounding 1 1 0xC0) ∧ (sounding 1 1 0xC0).active = true ∧
    (withVoice { sounding 1 0 0 with active := false } [0x100]).HandleAt 0 { sounding 1 0 0 with active := false } := by
  decide +kernel

theorem test_witness_CalcstepRoundsToNearest : 1000 ≤ standardConfig.fOut ∧ standardConfig.fOut ≤ 1000000 ∧
    (calcstep { standardConfig with fOut := 1000 } 48000 0).toNat = 3145728 ∧
    (calcstep { standardConfig with fOut := 1000000 } 1000 0).toNat = 66 := by decide +kernel

/-- A source that ends at `2^32`, 8 and 16 bits wide, and a loop at its end and at its start. -/
theorem test_witness_PcmRefillResult :
    let v : Voice := { Voice.reset with srcCur := 0xFFFFFFFE, srcEnd := 0 }
    v.fadpcm = false ∧ (v.srcEnd - v.srcCur).toNat / 1 ≠ 0 ∧ (v.srcEnd - v.srcCur).toNat / 2 ≠ 0 ∧ v.unitsLeft = 2 ∧
    looping.unitsLeft = 0 ∧ ({ looping with srcCur := 0x1004 } : Voice).unitsLeft = 4 := by decide +kernel

theorem test_witness_AdpcmRefillResult :
    let v : Voice := { Voice.reset with fadpcm := true, srcCur := 0xFFFFFF00, srcEnd := 0 }
    v.fadpcm = true ∧ v.f16 = false ∧ v.srcCur ≠ v.srcEnd ∧ v.bytesLeft = 256 ∧ standardConfig.variant = .a ∧
    ({ standardConfig with variant := .b } : Config).variant = .b := by decide +kernel

/-- The two ends: a source that is exhausted, and a loop that is. -/
theorem test_witness_RefillEndsOrRewinds :
    let v : Voice := { Voice.reset with f16 := true, srcCur := 0x1004, srcEnd := 0x1005 }
    v.looping = false ∧ (v.srcEnd - v.srcCur).toNat < 2 ∧
    looping.looping = true ∧ 1 ≤ (looping.loopEnd - looping.loopStart).toNat ∧
    (looping.loopEnd - looping.srcCur).toNat < 1 := by decide +kernel

/-- Two memories that differ only at the address after a looping source of two bytes. -/
theorem test_witness_RefillReadsOnlyItsSource :
    let v : Voice := { Voice.reset with looping := true, srcCur := 0x1000, loopStart := 0x1000, loopEnd := 0x1002 }
    v.looping = true ∧ v.srcCur.toNat = 0x1000 ∧ (v.loopEnd - v.srcCur).toNat = 2 ∧
    (∀ k, k < 2 → Memory.read (bytesAt 0x1000 [1, 2, 3]) (0x1000 + k) = Memory.read (bytesAt 0x1000 [1, 2, 4]) (0x1000 + k)) ∧
    Memory.read (bytesAt 0x1000 [1, 2, 3]) 0x1002 ≠ Memory.read (bytesAt 0x1000 [1, 2, 4]) 0x1002 := by decide +kernel

theorem test_witness_RefillCountsTheSamplesDown :
    let v : Voice := { Voice.reset with srcCur := 0x1000, srcEnd := 0x112C }
    v.looping = false ∧ v.samplesLeft = 300 ∧ ¬(v.fadpcm = true ∧ v.f16 = true) := by decide +kernel

theorem test_witness_AdpcmDecodeStep : standardConfig.wf = true ∧ (88#7).toNat ≤ 88 ∧ (0#7).toNat ≤ 88 := by decide +kernel

theorem test_witness_MixCompletes : busyPool.Inv ∧ (busyPool.x.get 0).toNat % 4 = 0 ∧
    (busyPool.x.get 0).toNat + 4 * busyPool.cfg.nf ≤ 2 ^ 32 ∧ (0xFFFFFFE0 : Nat) % 4 = 0 ∧
    0xFFFFFFE0 + 4 * busyPool.cfg.nf ≤ 2 ^ 32 := ⟨busyPool_inv, by decide +kernel⟩

theorem test_witness_MixOfNoVoiceIsTheBed : (fresh [0x2000]).mem.wf ∧ ((fresh [0x2000]).x.get 0).toNat % 4 = 0 ∧
    ((fresh [0x2000]).x.get 0).toNat + 4 * (fresh [0x2000]).cfg.nf ≤ 2 ^ 32 ∧
    ∀ v ∈ (fresh [0x2000]).voices, v.active = false ∨ v.lcount = 0 := by decide +kernel

/-- Two sounding voices, an idle one and an empty one, the filter on. -/
theorem test_witness_MixAddsVoicesInSlotOrder :
    let s : State := { fresh [0x2000] with lpfEn := true, alpha := 128, beta := 128, voices :=
      [sounding 1 0 0, { looping with gen := 2 }, { sounding 3 0 0 with lcount := 0 }, Voice.reset] }
    s.mem.wf ∧ (s.lpfEn = true → s.alpha.toNat + s.beta.toNat ≤ 256) ∧ (s.x.get 0).toNat % 4 = 0 ∧
    (s.x.get 0).toNat + 4 * s.cfg.nf ≤ 2 ^ 32 ∧
    ∀ v ∈ s.voices, (v.active && decide (v.lcount ≠ 0)) = true → v.positionAt s.cfg.nf < v.lcount.toNat * 2 ^ 16 := by
  decide +kernel

/-- The hypotheses of the refill statement on the voice, for a fresh machine that holds `v` in slot 0. -/
abbrev AloneInTheMix (v : Voice) : Prop :=
  let s := withVoice v [0x2000]
  s.Inv ∧ (s.x.get 0).toNat % 4 = 0 ∧ (s.x.get 0).toNat + 4 * s.cfg.nf ≤ 2 ^ 32 ∧ s.voices[0]? = some v ∧
  v.active = true ∧ (∀ (i : Nat) (w : Voice), i ≠ 0 → s.voices[i]? = some w → w.active = false) ∧
  ∀ a, (s.x.get 0).toNat ≤ a → a < (s.x.get 0).toNat + 4 * s.cfg.nf →
    (a < v.srcCur.toNat ∨ v.srcCur.toNat + v.bytesLeft ≤ a) ∧
    (v.looping = true → a < v.loopStart.toNat ∨ endAddress v.loopEnd ≤ a)

theorem aloneInTheMix (v : Voice) (h : v.active = true) (hi : (withVoice v [0x2000]).Inv)
    (hs : ∀ a, 0x2000 ≤ a → a < 0x2020 → (a < v.srcCur.toNat ∨ v.srcCur.toNat + v.bytesLeft ≤ a) ∧
      (v.looping = true → a < v.loopStart.toNat ∨ endAddress v.loopEnd ≤ a)) : AloneInTheMix v := by
  have hx : ((withVoice v [0x2000]).x.get 0).toNat = 0x2000 := (by decide +kernel : ((fresh [0x2000]).x.get 0).toNat = 0x2000)
  refine ⟨hi, by rw [hx], by rw [hx]; exact (by decide : 0x2000 + 4 * 8 ≤ 2 ^ 32), rfl, h, fun i w hne hw => ?_, ?_⟩
  · rcases i with _ | _ | _ | _ | i
    · exact absurd rfl hne
    all_goals cases hw
    all_goals rfl
  · rw [hx]; exact hs

/-- The three ways a voice's pass goes: 16 samples for 8 frames; 4 samples and no more; a loop of one sample, three samples a
frame, whose 21st refill is due after 7 frames. -/
theorem test_witness_MixRefillsAndEndsAVoice_plays :
    let v := sounding 1 0 0
    AloneInTheMix v ∧ 2 ^ 16 * v.samplesBefore standardConfig [] 0 ≤ v.positionAt 8 ∧
    v.positionAt 8 < 2 ^ 16 * v.samplesBefore standardConfig [] 1 :=
  ⟨aloneInTheMix _ rfl (by constructor <;> decide +kernel) (by decide +kernel), by decide +kernel, by decide +kernel⟩

theorem test_witness_MixRefillsAndEndsAVoice_ends :
    let v : Voice := { sounding 1 0 0 with lcount := 4 }
    AloneInTheMix v ∧ (v.refilled standardConfig [] 1).lcount = 0 ∧
    2 ^ 16 * v.samplesBefore standardConfig [] 1 ≤ v.positionAt 4 ∧
    ∀ f, f < 4 → v.positionAt f < 2 ^ 16 * v.samplesBefore standardConfig [] 1 :=
  ⟨aloneInTheMix _ rfl (by constructor <;> decide +kernel) (by decide +kernel), by decide +kernel, by decide +kernel,
    by decide +kernel⟩

theorem test_witness_MixRefillsAndEndsAVoice_capped :
    let v : Voice := { looping with lcount := 1, loopStart := 0x1007, step := 0x30000 }
    AloneInTheMix v ∧ (∀ i, i < 21 → (v.refilled standardConfig [] i).lcount ≠ 0) ∧
    2 ^ 16 * v.samplesBefore standardConfig [] 21 ≤ v.positionAt 7 ∧
    ∀ f, f < 7 → v.positionAt f < 2 ^ 16 * v.samplesBefore standardConfig [] 21 :=
  ⟨aloneInTheMix _ rfl (by constructor <;> decide +kernel) (by decide +kernel), by decide +kernel, by decide +kernel,
    by decide +kernel⟩

theorem test_witness_FrameAccumulatesWithSaturation : Memory.wf (bytesAt 0x2000 [1, 2]) ∧ 0xFFFFFFFC + 4 ≤ 2 ^ 32 := by
  decide +kernel

theorem test_witness_FilterAndGainsStayInRange :
    State.reset.alpha.toNat + State.reset.beta.toNat ≤ 256 ∧ State.reset.lpfEn = false ∧
    (128#9).toNat + (128#9).toNat ≤ 256 ∧ (State.lpfEn { State.reset with lpfEn := true }) = true := by decide +kernel

theorem test_witness_MixNeverEndsALoopingVoice : busyPool.Inv ∧ (∃ t, exec .mix busyPool = .next t) ∧
    busyPool.voices[1]? = some { looping with gen := 2 } ∧ looping.active = true ∧ looping.looping = true :=
  ⟨busyPool_inv, ⟨_, rfl⟩, by decide +kernel⟩

theorem test_witness_DrainResult : State.reset.draining = false ∧ State.reset.cbq.count = 0 ∧
    busyPool.draining = false ∧ busyPool.cbq.count ≠ 0 := by decide +kernel

theorem test_witness_CbackResult :
    let s : State := { busyPool with draining := true, cbValid := true, drainLeft := 7 }
    s.draining = true ∧ s.cbValid = true ∧ s.cbq.count ≠ 0 ∧ s.drainLeft ≠ 0 ∧ State.reset.draining = false := by
  decide +kernel

/-- A full queue, an empty one, and one whose tail has wrapped. -/
theorem test_witness_QueueIsFirstInFirstOut :
    CallbackQueue.Ok ⟨Vector.replicate 32 0, 8, 8, 32⟩ ∧ CallbackQueue.Ok ⟨Vector.replicate 32 0, 31, 31, 0⟩ ∧
    busyPool.cbq.Ok ∧ busyPool.cbq.count ≠ 0 ∧ busyPool.cbq.count ≠ 32 := by decide +kernel

theorem test_witness_TbloadResult : ((fresh [0xFFFFF300]).x.get 0).toNat + 3328 ≤ 2 ^ 32 ∧
    ((fresh [0]).x.get 0).toNat + 3328 ≤ 2 ^ 32 := by decide +kernel

theorem test_witness_OvtimbreResult : (8 : Fin 9).val = (8#4).toNat ∧ (0 : Fin 9).val = (0#4).toNat ∧
    loaded.tbValid = true := by decide +kernel

theorem test_witness_OvvolumeResult : (1 : Fin 9).val = (1#4).toNat ∧ twoNotes.tbValid = true ∧
    (twoNotes.ovoices.get 1).timbre = some 5 ∧ (twoNotes.ovoices.get 0).timbre = some 0 := by decide +kernel

theorem test_witness_OvpitchResult : twoNotes.cfg.wf = true ∧ (1 : Fin 9).val = (1#4).toNat ∧ twoNotes.tbValid = true ∧
    (twoNotes.ovoices.get 1).timbre = some 5 := by decide +kernel

theorem test_witness_SetmusicvolResult :
    (∀ k : Fin 9, (twoNotes.ovoices.get k).active = true → (twoNotes.ovoices.get k).timbre ≠ none) ∧
    (twoNotes.ovoices.get 0).active = true := by decide +kernel

/-- The loaded engine with these OPL voices in the first eight places and in the last. -/
def oplWith (most last : OplVoice) : State := { loaded with ovoices := (Vector.replicate 9 most).set 8 last }

theorem test_witness_OvfindAndOvallocResult_found :
    twoNotes.FirstOpl (OplVoice.Sounds 1 72) 1 ∧ twoNotes.NoOpl (OplVoice.Sounds 1 71) := by decide +kernel

/-- The clauses of the allocator in order: an idle voice with the timbre, an idle voice, a voice of the channel, a percussion
voice, voice 0. -/
theorem test_witness_OvfindAndOvallocResult :
    (oplWith OplVoice.reset { OplVoice.reset with timbre := some 5 }).OplChoice 0 5 8 ∧
    twoNotes.OplChoice 3 7 2 ∧ (oplWith note60 note72).OplChoice 1 9 8 :=
  ⟨by decide +kernel, by decide +kernel, by decide +kernel⟩

theorem test_witness_OvfindAndOvallocResult_steals :
    (oplWith note60 { note72 with channel := 9 }).OplChoice 1 9 8 ∧ (oplWith note60 note60).OplChoice 1 9 0 :=
  ⟨by decide +kernel, by decide +kernel⟩

theorem test_witness_NoteoffResult : twoNotes.FirstOpl (OplVoice.Sounds 0 60) 0 ∧
    twoNotes.NoOpl (OplVoice.Sounds 0 61) := by decide +kernel

/-- A voice that already sounds the note, and an allocated one; percussion and melodic. -/
theorem test_witness_NoteonResult : (1 : BitVec 7) ≠ 0 ∧ twoNotes.tbValid = true ∧
    twoNotes.FirstOpl (OplVoice.Sounds 0 60) 0 ∧ (twoNotes.chans.get 0).timbre = 0 ∧
    twoNotes.NoOpl (OplVoice.Sounds 9 36) ∧ twoNotes.OplChoice 9 (BitVec.ofNat 8 (128 + 36)) 2 := by decide +kernel

theorem test_witness_RepeatedNoteonUsesOneVoice : (127 : BitVec 7) ≠ 0 ∧ (64 : BitVec 7) ≠ 0 ∧ loaded.tbValid = true ∧
    (∀ j k : Fin 9, OplVoice.Sounds 0 60 (loaded.ovoices.get j) → OplVoice.Sounds 0 60 (loaded.ovoices.get k) → j = k) ∧
    ∃ t u, exec (.noteon 0 60 127) loaded = .next t ∧ exec (.noteon 0 60 64) t = .next u :=
  ⟨by decide, by decide, by decide +kernel, by decide +kernel, _, _, rfl, rfl⟩

theorem test_witness_ControllerAndProgchangeResult :
    (∀ k : Fin 9, ((twoNotes.ovoices.get k).active && (twoNotes.ovoices.get k).channel == 1) = true →
      (twoNotes.ovoices.get k).timbre ≠ none) ∧
    ((twoNotes.ovoices.get 1).active && (twoNotes.ovoices.get 1).channel == 1) = true ∧ (0 : BitVec 7) ≠ 7 ∧
    (127 : BitVec 7) ≠ 10 ∧ (122 : BitVec 7) ≠ 123 := by decide +kernel

theorem test_witness_PitchbendResult :
    ∀ k : Fin 9, ((twoNotes.ovoices.get k).active && (twoNotes.ovoices.get k).channel == 1) = true →
      (twoNotes.ovoices.get k).timbre ≠ none := by decide +kernel

end Sys2Proof.Tests
end

/-! ## The register window, MEM and reset (10_state.md R20 to R34, R49, R50) -/

namespace Sys2Proof.Machine

/-- Two fields side by side read as the number `high * 2 ^ width + low`: what the bit positions of 10_state.md R26 to R34
mean. -/
theorem toNat_append_eq_add {m n : Nat} (a : BitVec m) (b : BitVec n) : (a ++ b).toNat = a.toNat * 2 ^ n + b.toNat := by
  rw [BitVec.toNat_append, ← Nat.shiftLeft_add_eq_or_of_lt b.isLt, Nat.shiftLeft_eq]

/-- A field in the lowest bits of an otherwise empty word reads as itself. -/
theorem toNat_zero_append {n : Nat} (m : Nat) (b : BitVec n) : (0#m ++ b).toNat = b.toNat := by
  rw [toNat_append_eq_add, BitVec.toNat_zero, Nat.zero_mul, Nat.zero_add]

/-- The fields of `STATUS` (10_state.md R26). -/
theorem State.statusWord_toNat (s : State) :
    s.statusWord.toNat =
      s.busy.toNat + 2 * s.draining.toNat + 4 * s.cbValid.toNat + 8 * s.tbValid.toNat + 256 * s.err.toNat := by
  simp only [State.statusWord, toNat_append_eq_add, BitVec.toNat_ofBool, BitVec.toNat_ofNat]
  omega

/-- The fields of `CTRL` (10_state.md R28). -/
theorem State.ctrlWord_toNat (s : State) :
    s.ctrlWord.toNat = s.revStereo.toNat + 2 * s.lpfEn.toNat + 4 * s.musicGen.toNat := by
  simp only [State.ctrlWord, toNat_append_eq_add, BitVec.toNat_ofBool, BitVec.toNat_ofNat]
  omega

/-- The fields of `LPF` (10_state.md R30). -/
theorem State.lpfWord_toNat (s : State) : s.lpfWord.toNat = s.alpha.toNat + 2 ^ 16 * s.beta.toNat := by
  simp only [State.lpfWord, toNat_append_eq_add, BitVec.toNat_ofNat]
  omega

/-- The fields of `CBQ_STAT` (10_state.md R32). -/
theorem State.cbqStatWord_toNat (s : State) :
    s.cbqStatWord.toNat =
      s.cbq.count.toNat + 2 ^ 8 * s.cbq.head.toNat + 2 ^ 16 * s.cbq.tail.toNat + 2 ^ 24 * s.drainLeft.toNat := by
  simp only [State.cbqStatWord, toNat_append_eq_add, BitVec.toNat_ofNat]
  omega

/-- The fields of `CONFIG` (10_state.md R31), with `NV` in its range. -/
theorem State.configWord_toNat {s : State} (h : s.cfg.nv ≤ 256) :
    s.configWord.toNat =
      s.cfg.nv + 2 ^ 16 * (if s.cfg.variant = .b then 1 else 0) + 2 ^ 17 * s.cfg.percBanked.toNat := by
  simp only [State.configWord, toNat_append_eq_add, BitVec.toNat_ofBool, BitVec.toNat_ofNat]
  have hnv : s.cfg.nv % 2 ^ 9 = s.cfg.nv := Nat.mod_eq_of_lt (by omega)
  have hvariant : (s.cfg.variant == .b).toNat = if s.cfg.variant = .b then 1 else 0 := by cases s.cfg.variant <;> rfl
  rw [hvariant, hnv]
  omega

/-- The ranges of 00_scope.md R8 for the three parameters that are numbers. -/
theorem Config.ranges_of_wf {c : Config} (h : c.wf = true) :
    (1 ≤ c.nv ∧ c.nv ≤ 256) ∧ (1000 ≤ c.fOut ∧ c.fOut ≤ 1000000) ∧ (1 ≤ c.nf ∧ c.nf ≤ 65536) := by
  unfold Config.wf at h
  simp only [Bool.and_eq_true, decide_eq_true_eq, and_assoc] at h
  obtain ⟨hnv, hnv', hfOut, hfOut', hnf, hnf', -⟩ := h
  exact ⟨⟨hnv, hnv'⟩, ⟨hfOut, hfOut'⟩, hnf, hnf'⟩

/-- An operand register's offset reads that register (10_state.md R24). -/
theorem State.readReg_operand (s : State) (i : Fin 16) :
    s.readReg (BitVec.ofNat 8 (0x40 + 4 * i.val)) = s.x.get i := by
  unfold State.readReg
  rw [regOperand_operand]

/-- The offsets above the operand registers are reserved and read 0 (10_state.md R24). -/
theorem State.readReg_reserved (s : State) {off : BitVec 8} (h : 0x80 ≤ off.toNat) : s.readReg off = 0 := by
  unfold State.readReg
  rw [regOperand_none (.inr h)]
  simp only
  split <;> try omega
  rfl

/-- Settles O7, register by register; the ranges of the parameters keep `NV`, `F_OUT` and `NF` inside their words. -/
theorem registersReadTheirFields : Obligations.RegistersReadTheirFields := by
  intro s hwf
  obtain ⟨⟨-, hnv⟩, ⟨-, hfOut⟩, -, hnf⟩ := Config.ranges_of_wf hwf
  refine ⟨rfl, s.statusWord_toNat, rfl, toNat_zero_append 24 s.errflags, s.ctrlWord_toNat,
    toNat_zero_append 24 s.masterVol, toNat_zero_append 24 s.musicVol, s.lpfWord_toNat, s.cbqStatWord_toNat, rfl,
    toNat_zero_append 8 s.gen, State.configWord_toNat hnv, ?_, ?_, rfl, rfl, s.readReg_operand,
    fun _ => s.readReg_reserved⟩
  · exact Nat.mod_eq_of_lt (by omega)
  · exact Nat.mod_eq_of_lt (by omega)

/-- Settles O9: the step is one write of the operand vector. -/
theorem ldxStoresTheOperand : Obligations.LdxStoresTheOperand := by
  intro s rest i value hwf hbusy hq
  refine ⟨s.x.set i value, ?_, Vector.get_set_same _ _ _, fun j hj => Vector.get_set_other _ _ (Ne.symm hj)⟩
  rw [step_cons hwf hq]
  simp [ldx, HostAction.apply, State.regWrite, regAligned_operand, regOperand_operand, hbusy]

/-- Settles O12, by what a byte of MEM reads as after a write. -/
theorem hostAccessesMemory : Obligations.HostAccessesMemory := by
  intro s rest a b hwf hmem
  constructor
  · intro hq
    exact ⟨s.mem.write a.toNat b, step_cons hwf hq, Memory.write_wf hmem a.isLt b, Memory.read_write_same _ _ _,
      fun a' ha => Memory.read_write_other _ _ ha⟩
  · intro hq
    exact ⟨0#24 ++ s.mem.read a.toNat, step_cons hwf hq, toNat_zero_append 24 _⟩

/-- The state after hardware reset has the values of 10_state.md R49. -/
theorem State.resetWith_hasResetValues (c : Config) : (State.resetWith c).HasResetValues where
  res := rfl
  status := ⟨rfl, rfl, rfl, rfl, rfl⟩
  errflags := rfl
  ctrl := ⟨rfl, rfl, rfl⟩
  volumes := ⟨rfl, rfl⟩
  lpf := ⟨rfl, rfl⟩
  gen := rfl
  slots := List.length_replicate
  voices v hv := by
    rw [List.eq_of_mem_replicate hv]
    exact ⟨rfl, rfl, rfl, rfl, rfl, rfl⟩
  queue := ⟨rfl, rfl, rfl⟩
  session := ⟨rfl, rfl⟩
  ovoices k := by rw [State.resetWith_ovoices, Vector.get_replicate]; rfl
  chans n := by rw [State.resetWith_chans, Vector.get_replicate]; rfl

/-- What `RESET` and hardware reset share has the values of 10_state.md R49: it differs from `State.resetWith` only in fields
that R49 leaves unspecified. -/
theorem State.cleared_hasResetValues (s : State) : s.cleared.HasResetValues :=
  { State.resetWith_hasResetValues s.cfg with
    slots := by simp
    voices := by
      intro v hv
      obtain ⟨slot, -, rfl⟩ := List.mem_map.1 hv
      exact ⟨rfl, rfl, rfl, rfl, rfl, rfl⟩
    queue := ⟨rfl, rfl, rfl⟩ }

/-- A hardware reset in a run has the values of 10_state.md R49. -/
theorem State.hardwareReset_hasResetValues (s : State) : s.hardwareReset.HasResetValues :=
  { s.cleared_hasResetValues with }

/-- Settles O14, by the values of `State.resetWith`. -/
theorem resetStateHasTheListedValues : Obligations.ResetStateHasTheListedValues := by
  intro c
  refine ⟨State.resetWith_hasResetValues c, rfl, fun i => ?_, rfl, rfl, rfl⟩
  exact Vector.get_replicate 16 0 i

/-- `RESET` leaves the error code and the result that its completion writes (10_state.md R49, 46_system.md R331). -/
theorem State.cleared_complete (s : State) : s.cleared.complete 0 = s.cleared := by
  unfold State.complete
  rw [← State.cleared_err s, ← State.cleared_res s]

/-- The two points in which a hardware reset and `RESET` differ (10_state.md R50): the operand registers and the logs. -/
theorem State.hardwareReset_eq (s : State) :
    s.hardwareReset = { s.cleared.complete 0 with x := Vector.replicate 16 0, oplw := [], cbout := [] } := by
  rw [State.cleared_complete]
  rfl

/-- Settles O16: both resets leave `State.cleared`, which has the values of R49. -/
theorem hardwareResetDiffersInTwoPoints : Obligations.HardwareResetDiffersInTwoPoints := by
  intro s rest hwf hq
  let s' : State := { s with hostq := rest }
  exact ⟨s'.hardwareReset, s'.cleared.complete 0, step_cons hwf hq, rfl, s'.hardwareReset_eq,
    s'.hardwareReset_hasResetValues, rfl, rfl, rfl⟩

end Sys2Proof.Machine

/-! ## Work on the OPL side (44_opl_allocator.md, 45_fm_register_mapper.md): the log grows, and R250 is kept -/

namespace Sys2Proof.Machine

/-- What 44_opl_allocator.md R250 asks of one OPL voice: `State.OplOk` is this for all nine. -/
def OplVoice.Ok (tbValid : Bool) (o : OplVoice) : Prop :=
  o.keyon = o.active ∧ (o.active = true → o.timbre.isSome = true ∧ tbValid = true)

/-- 44_opl_allocator.md R250, voice by voice. -/
theorem State.oplOk_iff (s : State) : s.OplOk ↔ ∀ k, (s.ovoices.get k).Ok s.tbValid := Iff.rfl

/-- An OPL voice at rest is good whatever the bank. -/
theorem OplVoice.ok_of_idle {tbValid : Bool} {o : OplVoice} (hkey : o.keyon = false) (hactive : o.active = false) :
    o.Ok tbValid :=
  ⟨hkey.trans hactive.symm, fun h => by simp [hactive] at h⟩

/-- 44_opl_allocator.md R250 for every voice but `k`: what holds while a note is being started on `k`. -/
def State.OplOkExcept (s : State) (k : Fin 9) : Prop := ∀ j, j ≠ k → (s.ovoices.get j).Ok s.tbValid

/-- All nine voices are good when `k` and the others are. -/
theorem State.OplOkExcept.oplOk {s : State} {k : Fin 9} (h : s.OplOkExcept k) (hk : (s.ovoices.get k).Ok s.tbValid) :
    s.OplOk := by
  intro j
  by_cases hj : j = k
  · exact hj ▸ hk
  · exact h j hj

/-- Writing voice `k` does not touch the others. -/
theorem State.OplOkExcept.setOvoice {s : State} {k : Fin 9} (h : s.OplOkExcept k) (o : OplVoice) :
    (s.setOvoice k o).OplOkExcept k := by
  intro j hj
  rw [State.setOvoice_ovoices, Vector.get_set_other _ _ (Ne.symm hj)]
  exact h j hj

/-- Writing a good voice keeps R250. -/
theorem State.setOvoice_oplOk {s : State} {k : Fin 9} {o : OplVoice} (h : s.OplOk) (ho : o.Ok s.tbValid) :
    (s.setOvoice k o).OplOk := by
  have hexcept : s.OplOkExcept k := fun j _ => h j
  refine (hexcept.setOvoice o).oplOk ?_
  rw [State.setOvoice_ovoices, Vector.get_set_same]
  exact ho

/-- A release keeps R250 (44_opl_allocator.md R258): the voice is at rest after it. -/
theorem State.release_oplOk {s : State} (k : Fin 9) (h : s.OplOk) : (s.release k).OplOk :=
  State.setOvoice_oplOk (k := k) h (OplVoice.ok_of_idle rfl rfl)

/-- Programming a timbre keeps R250 (45_fm_register_mapper.md R296). -/
theorem State.setVoiceTimbre_oplOk {s : State} (k : Fin 9) (i : BitVec 8) (h : s.OplOk) : (s.setVoiceTimbre k i).OplOk := by
  obtain ⟨hkey, hbank⟩ := h k
  exact State.setOvoice_oplOk (k := k) h ⟨hkey, fun ha => ⟨rfl, (hbank ha).2⟩⟩

/-- `SetVoiceVolume` leaves the OPL voices as they are (45_fm_register_mapper.md R298). -/
@[simp] theorem State.setVoiceVolume_ovoices (s : State) (k : Fin 9) : (s.setVoiceVolume k).ovoices = s.ovoices := by
  rcases s.setVoiceVolume_cases k with ⟨i, -, h⟩ | ⟨-, h⟩ <;> rw [h]

/-- `SetVoiceVolume` leaves `TB_VALID` as it is. -/
@[simp] theorem State.setVoiceVolume_tbValid (s : State) (k : Fin 9) : (s.setVoiceVolume k).tbValid = s.tbValid := by
  rw [s.setVoiceVolume_same k]

/-- Writing levels keeps R250. -/
theorem State.setVoiceVolume_oplOk {s : State} (k : Fin 9) (h : s.OplOk) : (s.setVoiceVolume k).OplOk := by
  intro j
  rw [State.setVoiceVolume_ovoices, State.setVoiceVolume_tbValid]
  exact h j

/-- Writing a frequency keeps R250 (45_fm_register_mapper.md R300). -/
theorem State.setVoicePitch_oplOk {s : State} (k : Fin 9) (h : s.OplOk) : (s.setVoicePitch k).OplOk := by
  rcases s.setVoicePitch_cases k with ⟨i, -, hs⟩ | ⟨-, hs⟩
  · rw [hs]
    exact State.setOvoice_oplOk (k := k) h (h k)
  · rw [hs]
    exact h

/-- Starting a note from a loaded bank keeps R250 (44_opl_allocator.md R257): on the way only voice `k` is out of order,
and it ends active, keyed on and programmed. -/
theorem State.startNote_oplOk {s : State} (hbank : s.tbValid = true) (k : Fin 9) (ch : BitVec 4) (key vel : BitVec 7)
    (tim : BitVec 8) (h : s.OplOk) : (s.startNote k ch key vel tim).OplOk := by
  unfold State.startNote
  extract_lets s1 o1 s2 s3 s4 o4 s5
  have h1 : s1.OplOkExcept k ∧ s1.tbValid = true := by
    have h0 : s.OplOkExcept k := fun j _ => h j
    unfold s1
    split
    · exact ⟨h0.setOvoice _, hbank⟩
    · exact ⟨h0, hbank⟩
  have h2 : s2.OplOkExcept k ∧ s2.tbValid = true ∧ (s2.ovoices.get k).active = true :=
    ⟨h1.1.setOvoice _, h1.2, by simp [s2, o1]⟩
  have h3 : s3.OplOkExcept k ∧ s3.tbValid = true ∧ (s3.ovoices.get k).active = true ∧
      (s3.ovoices.get k).timbre.isSome = true := by
    obtain ⟨hother, htb, hactive⟩ := h2
    unfold s3
    split
    · rename_i htim
      exact ⟨hother, htb, hactive, by rw [htim]; rfl⟩
    · exact ⟨hother.setOvoice _, htb, by simpa [State.setVoiceTimbre_eq] using hactive, by simp [State.setVoiceTimbre_eq]⟩
  obtain ⟨hother, htb, hactive, htim⟩ := h3
  have h4 : s4.OplOkExcept k := fun j hj => by
    unfold s4
    rw [State.setVoiceVolume_ovoices, State.setVoiceVolume_tbValid]
    exact hother j hj
  have h5 : s5.OplOk := (h4.setOvoice _).oplOk (by simp [o4, s4, OplVoice.Ok, hactive, htim, htb])
  exact State.setVoicePitch_oplOk k h5

/-- Work on the OPL side: nothing else differs, and the log of 10_state.md R46 has grown. -/
structure State.OplGrows (s t : State) : Prop where
  same : s.SameButOpl t
  log  : s.oplw <+: t.oplw

/-- No work is work. -/
theorem State.OplGrows.refl (s : State) : s.OplGrows s := ⟨State.SameButOpl.refl s, List.prefix_rfl⟩

/-- Work after work is work. -/
theorem State.OplGrows.trans {s t u : State} (h1 : s.OplGrows t) (h2 : t.OplGrows u) : s.OplGrows u :=
  ⟨h1.same.trans h2.same, h1.log.trans h2.log⟩

/-- A write of an OPL voice is work on the OPL side. -/
theorem State.setOvoice_grows (s : State) (k : Fin 9) (o : OplVoice) : s.OplGrows (s.setOvoice k o) :=
  ⟨State.setOvoice_same s k o, List.prefix_rfl⟩

/-- `KeyOff` is work on the OPL side. -/
theorem State.keyOff_grows (s : State) (k : Fin 9) : s.OplGrows (s.keyOff k) :=
  ⟨State.keyOff_same s k, List.prefix_append _ _⟩

/-- A release is work on the OPL side. -/
theorem State.release_grows (s : State) (k : Fin 9) : s.OplGrows (s.release k) :=
  ⟨State.release_same s k, List.prefix_append _ _⟩

/-- Programming a timbre is work on the OPL side. -/
theorem State.setVoiceTimbre_grows (s : State) (k : Fin 9) (i : BitVec 8) : s.OplGrows (s.setVoiceTimbre k i) :=
  ⟨State.setVoiceTimbre_same s k i, List.prefix_append _ _⟩

/-- Writing levels is work on the OPL side. -/
theorem State.setVoiceVolume_grows (s : State) (k : Fin 9) : s.OplGrows (s.setVoiceVolume k) := by
  refine ⟨State.setVoiceVolume_same s k, ?_⟩
  rcases s.setVoiceVolume_cases k with ⟨i, -, h⟩ | ⟨-, h⟩ <;> rw [h]
  exact List.prefix_append _ _

/-- Writing a frequency is work on the OPL side. -/
theorem State.setVoicePitch_grows (s : State) (k : Fin 9) : s.OplGrows (s.setVoicePitch k) := by
  refine ⟨State.setVoicePitch_same s k, ?_⟩
  rcases s.setVoicePitch_cases k with ⟨i, -, h⟩ | ⟨-, h⟩ <;> rw [h]
  exact List.prefix_append _ _

/-- Starting a note is work on the OPL side (44_opl_allocator.md R257). -/
theorem State.startNote_grows (s : State) (k : Fin 9) (ch : BitVec 4) (key vel : BitVec 7) (tim : BitVec 8) :
    s.OplGrows (s.startNote k ch key vel tim) := by
  unfold State.startNote
  extract_lets s1 o1 s2 s3 s4 o4 s5
  have h1 : s.OplGrows s1 := by
    unfold s1
    split
    · exact s.keyOff_grows k
    · exact .refl s
  have h2 : s.OplGrows s2 := h1.trans (s1.setOvoice_grows k _)
  have h3 : s.OplGrows s3 := by
    unfold s3
    split
    · exact h2
    · exact h2.trans (s2.setVoiceTimbre_grows k tim)
  have h4 : s.OplGrows s4 := h3.trans (s3.setVoiceVolume_grows k)
  have h5 : s.OplGrows s5 := h4.trans (s4.setOvoice_grows k _)
  exact h5.trans (s5.setVoicePitch_grows k)

/-- Work on the OPL side that keeps R250: what the commands of 44_opl_allocator.md and 45_fm_register_mapper.md do. -/
structure State.OplWork (s t : State) : Prop extends State.OplGrows s t where
  ok : s.OplOk → t.OplOk

/-- No work is work. -/
theorem State.OplWork.refl (s : State) : s.OplWork s := ⟨.refl s, id⟩

/-- Work after work is work. -/
theorem State.OplWork.trans {s t u : State} (h1 : s.OplWork t) (h2 : t.OplWork u) : s.OplWork u :=
  ⟨h1.toOplGrows.trans h2.toOplGrows, fun h => h2.ok (h1.ok h)⟩

/-- Writing the channel table before such work or after it comes to the same. -/
theorem State.OplWork.setChans {s t : State} (h : s.OplWork t) (chans : Vector Channel 16) :
    { s with chans := chans }.OplWork { t with chans := chans } := by
  have hsame : { t with chans := chans } = { s with ovoices := t.ovoices, oplw := t.oplw, chans := chans } :=
    congrArg (fun u : State => { u with chans := chans }) h.same
  exact ⟨⟨hsame, h.log⟩, h.ok⟩

theorem State.release_work (s : State) (k : Fin 9) : s.OplWork (s.release k) :=
  ⟨s.release_grows k, State.release_oplOk k⟩

theorem State.setVoiceTimbre_work (s : State) (k : Fin 9) (i : BitVec 8) : s.OplWork (s.setVoiceTimbre k i) :=
  ⟨s.setVoiceTimbre_grows k i, State.setVoiceTimbre_oplOk k i⟩

theorem State.setVoiceVolume_work (s : State) (k : Fin 9) : s.OplWork (s.setVoiceVolume k) :=
  ⟨s.setVoiceVolume_grows k, State.setVoiceVolume_oplOk k⟩

theorem State.setVoicePitch_work (s : State) (k : Fin 9) : s.OplWork (s.setVoicePitch k) :=
  ⟨s.setVoicePitch_grows k, State.setVoicePitch_oplOk k⟩

theorem State.startNote_work {s : State} (hbank : s.tbValid = true) (k : Fin 9) (ch : BitVec 4) (key vel : BitVec 7)
    (tim : BitVec 8) : s.OplWork (s.startNote k ch key vel tim) :=
  ⟨s.startNote_grows k ch key vel tim, State.startNote_oplOk hbank k ch key vel tim⟩

/-- One key-off write and one voice at its reset value, as `OPLRESET` does nine times (44_opl_allocator.md R266). -/
theorem State.resetOvoice_work (s : State) (k : Fin 9) :
    s.OplWork ((s.oplWrite (voiceReg 0xB0 k) 0).setOvoice k OplVoice.reset) :=
  ⟨⟨rfl, List.prefix_append _ _⟩, fun h => State.setOvoice_oplOk (k := k) h (OplVoice.ok_of_idle rfl rfl)⟩

/-- A pass over the nine voices whose body is such work is such work. -/
theorem State.forOplSlots_work (s : State) {f : State → Fin 9 → State} (hf : ∀ t k, State.OplWork t (f t k)) :
    s.OplWork (s.forOplSlots f) :=
  State.forOplSlots_induct (fun t => s.OplWork t) (.refl s) fun t k h => h.trans (hf t k)

/-- A pass over the active voices (00_scope.md R16). -/
theorem State.forActiveSlots_work (s : State) {f : State → Fin 9 → State} (hf : ∀ t k, State.OplWork t (f t k)) :
    s.OplWork (s.forActiveSlots f) := by
  refine s.forOplSlots_work fun t k => ?_
  split
  · exact hf t k
  · exact .refl t

/-- A pass over the active voices of a channel (44_opl_allocator.md R260, R264). -/
theorem State.forChannelSlots_work (s : State) (ch : BitVec 4) {f : State → Fin 9 → State}
    (hf : ∀ t k, State.OplWork t (f t k)) : s.OplWork (s.forChannelSlots ch f) := by
  refine s.forOplSlots_work fun t k => ?_
  split
  · exact hf t k
  · exact .refl t

/-- The voice table after every active voice is released (45_fm_register_mapper.md R291). -/
theorem State.releaseActive_ovoices (s : State) (k : Fin 9) :
    ((s.forActiveSlots State.release).ovoices.get k) =
      if (s.ovoices.get k).active then { s.ovoices.get k with keyon := false, active := false } else s.ovoices.get k := by
  unfold State.forActiveSlots
  rw [State.forOplSlots_if_eq s (·.active) State.release (fun _ o => { o with keyon := false, active := false })
    (fun k o => [(voiceReg 0xB0 k, keyByte false o.pitch)]) fun ov log k _ => rfl, Vector.get_ofFn']

/-- After every active voice is released none is active, and none is keyed on if R250 held. -/
theorem State.releaseActive_idle {s : State} (h : s.OplOk) (k : Fin 9) :
    ((s.forActiveSlots State.release).ovoices.get k).keyon = false ∧
      ((s.forActiveSlots State.release).ovoices.get k).active = false := by
  rw [State.releaseActive_ovoices]
  split
  · exact ⟨rfl, rfl⟩
  · rename_i hidle
    rw [(h k).1]
    simp [hidle]

end Sys2Proof.Machine

/-! ## What a command can do

Every command ends in one of two ways (00_scope.md R15): it fails from the state it started in, or it completes from the
state that its effect leaves. `exec_ends` says so once for the 36 commands, with the effects grouped by what they touch, and
the invariants of this file follow from it effect by effect. -/

namespace Sys2Proof.Machine

/-- What `STOP`, `SETPAN`, `SETPITCH` and `SETFREQ` (40_voice_pool.md R141 to R145) make of a voice. -/
inductive Voice.Adjusted (c : Config) (v : Voice) : Voice → Prop
  | stopped : Adjusted c v { v with active := false }
  | panned (l r : BitVec 8) : Adjusted c v { v with volL := l, volR := r }
  | retuned (base pitch : BitVec 32) (rate : Nat) (p : Int) (hbase : base = v.baseRate ∨ base ≠ 0) :
      Adjusted c v { v with baseRate := base, pitch := pitch, step := calcstep c rate p }

/-- The effect of an accepted `PLAY` (40_voice_pool.md R136) on slot `k`, which held `v`: a stolen voice's token is enqueued
(R134), the slot is started anew and `GEN` advances. -/
def State.played (s : State) (fmt : BitVec 4) (k : Nat) (v : Voice) : State :=
  { s with
    voices := s.voices.set k { v.started fmt s with gen := nextGen s.gen }
    cbq := if v.active then s.cbq.enqueue v.token else s.cbq
    errflags := if v.active then enqueueFlags s.cbq s.errflags else s.errflags
    gen := nextGen s.gen }

/-- An accepted `PLAY` is its effect and the handle. -/
theorem State.playInSlot_eq (s : State) (fmt : BitVec 4) (k : Nat) (v : Voice) :
    s.playInSlot fmt k v = (s.played fmt k v).complete (mkHandle (nextGen s.gen) k) := by
  unfold State.playInSlot State.played State.finalize
  cases v.active
  · rfl
  · simp [State.setVoice, State.enqueue]

/-- The commands that write the channel table (10_state.md R44), `RESET` aside. -/
inductive ChannelWriter : Instr → Prop
  | controller (ch : BitVec 4) (d1 d2 : BitVec 7) : ChannelWriter (.controller ch d1 d2)
  | progchange (ch : BitVec 4) (d1 : BitVec 7) : ChannelWriter (.progchange ch d1)
  | pitchbend (ch : BitVec 4) (d1 d2 : BitVec 7) : ChannelWriter (.pitchbend ch d1 d2)
  | oplreset : ChannelWriter .oplreset

/-- `Effect s i u`: command `i` can take state `s` to `u`, before its completion writes `RES` and `STATUS.ERR`. Three groups
of commands need no arm of their own, because what they touch belongs to no single command: those that change nothing, those
that adjust one voice, and those whose work is on the OPL side. -/
inductive Effect (s : State) : Instr → State → Prop
  | unchanged (i : Instr) : Effect s i s
  | adjusts (i : Instr) {k : Nat} {v v' : Voice} (hv : s.voices[k]? = some v) (h : v.Adjusted s.cfg v') :
      Effect s i (s.setVoice k v')
  | opl (i : Instr) {u : State} (h : s.OplWork u) : Effect s i u
  | channels {i : Instr} {u : State} (chans : Vector Channel 16) (hi : ChannelWriter i)
      (h : { s with chans := chans }.OplWork u) : Effect s i u
  | reset : Effect s .reset s.cleared
  | clrerr (imm8 : BitVec 8) : Effect s (.clrerr imm8) { s with errflags := s.errflags &&& ~~~imm8 }
  | play {fmt : BitVec 4} {k : Nat} {v : Voice} (hargs : playArgsOk fmt s = true) (hv : s.voices[k]? = some v) :
      Effect s (.play fmt) (s.played fmt k v)
  | stopall : Effect s .stopall { s with voices := s.voices.map fun v => { v with active := false } }
  | setmastervol (imm8 : BitVec 8) : Effect s (.setmastervol imm8) { s with masterVol := imm8 }
  | setrevstereo (imm1 : Bool) : Effect s (.setrevstereo imm1) { s with revStereo := imm1 }
  | setmusicgen (imm1 : Bool) : Effect s (.setmusicgen imm1) { s with musicGen := imm1 }
  | setlpf (en : Bool) (beta alpha : BitVec 9) (h : alpha.toNat + beta.toNat ≤ 256) :
      Effect s (.setlpf en beta alpha) { s with alpha := alpha, beta := beta, lpfEn := en }
  | setmusicvol {imm8 : BitVec 8} {u : State} (h : { s with musicVol := imm8 }.OplWork u) : Effect s (.setmusicvol imm8) u
  | mix {vs : List Voice} {acc : MixAcc} (hargs : s.mixArgsOk = true)
      (hpass : s.mixVoices s.opAddr s.voices ⟨s.mixBed s.opAddr, s.cbq, s.errflags, 0⟩ = (vs, acc)) :
      Effect s .mix { s with voices := vs, mem := acc.mem, cbq := acc.cbq, errflags := acc.flags }
  | drain (h : s.draining = false) : Effect s .drain s.openDrain.advance
  | cback (h : s.draining = true) (hvalid : s.cbValid = true) : Effect s .cback s.advance
  | tbload :
      Effect s .tbload { s.forActiveSlots State.release with
        tb := s.mem.readBytes s.opAddr 3328
        ovoices := (s.forActiveSlots State.release).ovoices.map fun o => { o with timbre := none }
        tbValid := true }

/-- The two ways a command ends (00_scope.md R15). -/
inductive CommandEnds (s : State) (i : Instr) : Result → Prop
  | fails (e : Failure) : CommandEnds s i (.next (s.fail e))
  | completes {u : State} (r : Word) (h : Effect s i u) : CommandEnds s i (.next (u.complete r))

/-- A command that completes without an effect. -/
theorem CommandEnds.answers (s : State) (i : Instr) (r : Word) : CommandEnds s i (.next (s.complete r)) :=
  .completes r (.unchanged i)

/-! ### The voice pool (40_voice_pool.md) -/

theorem execPlay_ends (fmt : BitVec 4) (s : State) : CommandEnds s (.play fmt) (execPlay fmt s) := by
  rcases execPlay_cases fmt s with ⟨-, h⟩ | ⟨-, -, h⟩ | ⟨k, v, hargs, -, hv, h⟩ <;> rw [h]
  · exact .fails _
  · exact .fails _
  · rw [State.playInSlot_eq]
    exact .completes _ (.play hargs hv)

theorem execAlloc_ends (s : State) : CommandEnds s .alloc (execAlloc s) := by
  unfold execAlloc
  split <;> exact .answers s _ _

theorem execStop_ends (s : State) : CommandEnds s .stop (execStop s) := by
  unfold execStop
  split
  · rename_i k v hl
    obtain ⟨-, -, -, hv, -⟩ := State.lookup_eq_some.1 hl
    exact .completes _ (.adjusts _ hv .stopped)
  · exact .fails _

theorem execIsplaying_ends (s : State) : CommandEnds s .isplaying (execIsplaying s) := by
  unfold execIsplaying
  split
  · exact .answers s _ _
  · exact .fails _

/-- A command on a handle's active voice fails, leaves an inactive voice alone, or adjusts an active one (40_voice_pool.md
R143 to R145). -/
theorem State.onActiveVoice_ends (s : State) (i : Instr) {change : Voice → Voice}
    (h : ∀ v : Voice, v.Adjusted s.cfg (change v)) : CommandEnds s i (s.onActiveVoice change) := by
  rcases s.onActiveVoice_cases change with ⟨-, he⟩ | ⟨k, v, hl, he⟩ <;> rw [he]
  · exact .fails _
  · obtain ⟨-, -, -, hv, -⟩ := State.lookup_eq_some.1 hl
    split
    · exact .completes _ (.adjusts _ hv (h v))
    · exact .answers s _ _

/-- The rate operand is never 0: 0 stands for 11025 (40_voice_pool.md R136, R145). -/
theorem State.opRate_pos (s : State) : 0 < s.opRate := by
  unfold State.opRate
  split <;> omega

/-- The rate operand fits its register (10_state.md R35). -/
theorem State.opRate_lt (s : State) : s.opRate < 2 ^ 32 := by
  unfold State.opRate
  split
  · decide
  · exact BitVec.isLt _

/-- The rate register holds the rate operand (40_voice_pool.md R136, R145). -/
theorem State.opRate_toNat (s : State) : (BitVec.ofNat 32 s.opRate).toNat = s.opRate :=
  Nat.mod_eq_of_lt s.opRate_lt

theorem execSetpan_ends (s : State) : CommandEnds s .setpan (execSetpan s) :=
  s.onActiveVoice_ends .setpan fun _ => .panned _ _

theorem execSetpitch_ends (s : State) : CommandEnds s .setpitch (execSetpitch s) :=
  s.onActiveVoice_ends .setpitch fun v => .retuned v.baseRate _ _ _ (.inl rfl)

theorem execSetfreq_ends (s : State) : CommandEnds s .setfreq (execSetfreq s) := by
  refine s.onActiveVoice_ends .setfreq fun v => .retuned _ v.pitch _ _ (.inr fun h => ?_)
  have := s.opRate_toNat
  rw [h] at this
  exact absurd this s.opRate_pos.ne

theorem execSetlpf_ends (en : Bool) (beta alpha : BitVec 9) (s : State) :
    CommandEnds s (.setlpf en beta alpha) (execSetlpf en beta alpha s) := by
  unfold execSetlpf
  split
  · exact .fails _
  · exact .completes _ (.setlpf en beta alpha (by omega))

/-! ### The mixer and the drain session (42_mixer.md, 43_callback_queue.md) -/

theorem execMix_ends (s : State) : CommandEnds s .mix (execMix s) := by
  rcases execMix_cases s with ⟨-, h⟩ | ⟨hargs, vs, acc, hpass, h⟩ <;> rw [h]
  · exact .fails _
  · exact .completes _ (.mix hargs hpass)

theorem execDrain_ends (s : State) : CommandEnds s .drain (execDrain s) := by
  unfold execDrain
  split
  · exact .answers s _ _
  · rename_i h
    exact .completes _ (.drain (by simpa using h))

theorem execCback_ends (s : State) : CommandEnds s .cback (execCback s) := by
  unfold execCback
  split
  · rename_i h
    obtain ⟨hdrain, hvalid⟩ := Bool.and_eq_true_iff.1 h
    exact .completes _ (.cback hdrain hvalid)
  · exact .answers s _ _

/-! ### The OPL side (44_opl_allocator.md, 45_fm_register_mapper.md) -/

theorem execTbload_ends (s : State) : CommandEnds s .tbload (execTbload s) := by
  unfold execTbload
  split
  · exact .fails _
  · exact .completes _ .tbload

theorem execOvtimbre_ends (vo : BitVec 4) (tim : BitVec 8) (s : State) :
    CommandEnds s (.ovtimbre vo tim) (execOvtimbre vo tim s) := by
  unfold execOvtimbre
  split
  · exact .fails _
  · split
    · exact .completes _ (.opl _ (s.setVoiceTimbre_work _ _))
    · exact .fails _

theorem execOvvolume_ends (vo : BitVec 4) (s : State) : CommandEnds s (.ovvolume vo) (execOvvolume vo s) := by
  unfold execOvvolume
  split
  · exact .fails _
  · split
    · exact .completes _ (.opl _ (s.setVoiceVolume_work _))
    · exact .fails _

theorem execOvpitch_ends (vo : BitVec 4) (s : State) : CommandEnds s (.ovpitch vo) (execOvpitch vo s) := by
  unfold execOvpitch
  split
  · exact .fails _
  · split
    · exact .completes _ (.opl _ (s.setVoicePitch_work _))
    · exact .fails _

theorem execOvfind_ends (ch : BitVec 4) (key : BitVec 7) (s : State) :
    CommandEnds s (.ovfind ch key) (execOvfind ch key s) := by
  unfold execOvfind
  split <;> exact .answers s _ _

/-- A Note Off finds no voice and changes nothing, or releases the voice it finds (44_opl_allocator.md R258). -/
theorem State.noteOff_ends (s : State) (i : Instr) (ch : BitVec 4) (key : BitVec 7) :
    CommandEnds s i (.next (s.noteOff ch key)) := by
  unfold State.noteOff
  split
  · exact .answers s _ _
  · exact .completes _ (.opl _ (s.release_work _))

theorem execNoteon_ends (ch : BitVec 4) (d1 d2 : BitVec 7) (s : State) :
    CommandEnds s (.noteon ch d1 d2) (execNoteon ch d1 d2 s) := by
  unfold execNoteon
  split
  · exact s.noteOff_ends _ ch d1
  · split
    · rename_i hbank
      exact .completes _ (.opl _ (State.startNote_work hbank _ _ _ _ _))
    · exact .fails _

theorem execController_ends (ch : BitVec 4) (d1 d2 : BitVec 7) (s : State) :
    CommandEnds s (.controller ch d1 d2) (execController ch d1 d2 s) := by
  unfold execController
  split
  · exact .completes _ (.channels _ (.controller ch d1 d2)
      (State.forChannelSlots_work _ ch fun t k => t.setVoiceVolume_work k))
  · split
    · exact .completes _ (.channels _ (.controller ch d1 d2) (.refl _))
    · split
      · exact .completes _ (.opl _ (s.forChannelSlots_work ch fun t k => t.release_work k))
      · exact .answers s _ _

theorem execPitchbend_ends (ch : BitVec 4) (d1 d2 : BitVec 7) (s : State) :
    CommandEnds s (.pitchbend ch d1 d2) (execPitchbend ch d1 d2 s) :=
  .completes _ (.channels _ (.pitchbend ch d1 d2) (State.forChannelSlots_work _ ch fun t k => t.setVoicePitch_work k))

theorem execOplreset_ends (s : State) : CommandEnds s .oplreset (execOplreset s) := by
  have hwork := s.forOplSlots_work fun t k => t.resetOvoice_work k
  exact .completes _ (.channels _ .oplreset (hwork.setChans _))

/-- Every command fails from its start state, or completes from the state its effect leaves. -/
theorem exec_ends (i : Instr) (s : State) : CommandEnds s i (exec i s) := by
  cases i with
  | nop => exact .answers s _ _
  | reset => exact .completes _ .reset
  | clrerr imm8 => exact .completes _ (.clrerr imm8)
  | alloc => exact execAlloc_ends s
  | play fmt => exact execPlay_ends fmt s
  | stop => exact execStop_ends s
  | stopall => exact .completes _ .stopall
  | setpan => exact execSetpan_ends s
  | setpitch => exact execSetpitch_ends s
  | setfreq => exact execSetfreq_ends s
  | isplaying => exact execIsplaying_ends s
  | countplaying => exact .answers s _ _
  | hasfree => exact .answers s _ _
  | setmastervol imm8 => exact .completes _ (.setmastervol imm8)
  | setrevstereo imm1 => exact .completes _ (.setrevstereo imm1)
  | setlpf en beta alpha => exact execSetlpf_ends en beta alpha s
  | setmusicgen imm1 => exact .completes _ (.setmusicgen imm1)
  | mix => exact execMix_ends s
  | drain => exact execDrain_ends s
  | cback => exact execCback_ends s
  | tbload => exact execTbload_ends s
  | oplreset => exact execOplreset_ends s
  | oplalloff => exact .completes _ (.opl _ (s.forActiveSlots_work fun t k => t.release_work k))
  | setmusicvol imm8 => exact .completes _ (.setmusicvol (State.forActiveSlots_work _ fun t k => t.setVoiceVolume_work k))
  | ovfind qch key => exact execOvfind_ends qch key s
  | ovalloc qch tim => exact .answers s _ _
  | ovtimbre vo tim => exact execOvtimbre_ends vo tim s
  | ovvolume vo => exact execOvvolume_ends vo s
  | ovpitch vo => exact execOvpitch_ends vo s
  | noteoff ch d1 d2 => exact s.noteOff_ends _ ch d1
  | noteon ch d1 d2 => exact execNoteon_ends ch d1 d2 s
  | keypressure ch d1 d2 => exact .answers s _ _
  | controller ch d1 d2 => exact execController_ends ch d1 d2 s
  | progchange ch d1 => exact .completes _ (.channels _ (.progchange ch d1) (.refl _))
  | chanpressure ch d1 => exact .answers s _ _
  | pitchbend ch d1 d2 => exact execPitchbend_ends ch d1 d2 s

/-- The next state of a command is a failure's or that of a completed effect: the case split of the invariants below. -/
theorem exec_next_cases {i : Instr} {s t : State} (h : exec i s = .next t) :
    (∃ e, t = s.fail e) ∨ ∃ u r, Effect s i u ∧ t = u.complete r := by
  have hends := exec_ends i s
  rw [h] at hends
  cases hends with
  | fails e => exact .inl ⟨e, rfl⟩
  | completes r he => exact .inr ⟨_, r, he, rfl⟩

end Sys2Proof.Machine

/-! ## What no command writes, what only grows, what stays set (10_state.md R21, R27, R46) -/

namespace Sys2Proof.Machine

/-- `advance()` touches the drain session, the queue and the log of delivered tokens only (43_callback_queue.md R233). -/
theorem State.advance_frame_eq (s : State) :
    s.advance = { s with
      cbq := s.advance.cbq, draining := s.advance.draining, drainLeft := s.advance.drainLeft
      cbValid := s.advance.cbValid, cbToken := s.advance.cbToken, cbout := s.advance.cbout } := by
  rcases s.advance_cases with ⟨-, -, h⟩ | ⟨-, h⟩ <;> rw [h]

/-- `advance()` makes no OPL write. -/
@[simp] theorem State.advance_oplw (s : State) : s.advance.oplw = s.oplw := by rw [State.advance_frame_eq]

/-- Releasing the active voices touches the OPL voices and their log only. -/
theorem State.releaseActive_same (s : State) : s.SameButOpl (s.forActiveSlots State.release) :=
  (s.forActiveSlots_work fun t k => t.release_work k).same

/-- Settles O21: a failure writes `RES`, `STATUS.ERR` and the flags, and each effect only the fields it names. -/
theorem commandsWriteOnlyTheirOwnState : Obligations.CommandsWriteOnlyTheirOwnState := by
  intro i s t h
  rcases exec_next_cases h with ⟨e, rfl⟩ | ⟨u, r, heff, rfl⟩
  · simp
  cases heff with
  | unchanged => simp
  | adjusts => simp
  | opl _ h => rw [h.same]; simp
  | channels chans hi h => rw [h.same]; cases hi <;> simp
  | reset => simp
  | clrerr => simp
  | play => simp [State.played]
  | stopall => simp
  | setmastervol => simp
  | setrevstereo => simp
  | setmusicgen => simp
  | setlpf => simp
  | setmusicvol h => rw [h.same]; simp
  | mix => simp
  | drain => rw [State.advance_frame_eq]; simp
  | cback => rw [State.advance_frame_eq]; simp
  | tbload => rw [s.releaseActive_same]; simp

/-- What `advance()` adds to the log of delivered tokens: at most one (43_callback_queue.md R233). -/
theorem State.advance_cbout (s : State) : ∃ ts : List Word, s.advance.cbout = s.cbout ++ ts ∧ ts.length ≤ 1 := by
  rcases s.advance_cases with ⟨-, -, h⟩ | ⟨-, h⟩ <;> rw [h]
  · exact ⟨[s.cbq.front], rfl, le_refl _⟩
  · exact ⟨[], (List.append_nil _).symm, Nat.zero_le _⟩

/-- The logs of 10_state.md R46 have grown, `CBOUT` by at most one token. -/
def State.LogsGrow (s t : State) : Prop :=
  s.oplw <+: t.oplw ∧ ∃ ts : List Word, t.cbout = s.cbout ++ ts ∧ ts.length ≤ 1

/-- Logs that are as they were have grown by nothing. -/
theorem State.LogsGrow.of_same {s t : State} (hoplw : t.oplw = s.oplw) (hcbout : t.cbout = s.cbout) : s.LogsGrow t :=
  ⟨by rw [hoplw], [], by rw [hcbout, List.append_nil], Nat.zero_le _⟩

/-- Work on the OPL side adds to `OPLW` only. -/
theorem State.OplGrows.logsGrow {s t : State} (h : s.OplGrows t) : s.LogsGrow t :=
  ⟨h.log, [], by rw [h.same, List.append_nil], Nat.zero_le _⟩

/-- Every effect of a command leaves the old entries of both logs in front of the new ones (10_state.md R46). -/
theorem Effect.logsGrow {s u : State} {i : Instr} (h : Effect s i u) : s.LogsGrow u := by
  cases h with
  | opl _ h => exact h.logsGrow
  | channels chans hi h => exact h.logsGrow
  | setmusicvol h => exact h.logsGrow
  | tbload =>
    have hgrow := (s.forActiveSlots_work fun t k => t.release_work k).logsGrow
    simpa only [State.LogsGrow] using hgrow
  | drain => exact ⟨by simp, s.openDrain.advance_cbout⟩
  | cback => exact ⟨by simp, s.advance_cbout⟩
  | unchanged | adjusts | reset | clrerr | play | stopall | setmastervol | setrevstereo | setmusicgen | setlpf | mix =>
    exact .of_same rfl rfl

/-- Settles O23: a failure leaves the logs alone, and every effect lets them grow. -/
theorem logsOnlyGrow : Obligations.LogsOnlyGrow := by
  intro i s t h
  have hgrow : s.LogsGrow t := by
    rcases exec_next_cases h with ⟨e, rfl⟩ | ⟨u, r, heff, rfl⟩
    · exact .of_same rfl rfl
    · exact heff.logsGrow
  obtain ⟨⟨ws, hws⟩, hcbout⟩ := hgrow
  exact ⟨⟨ws, hws.symm⟩, hcbout⟩

/-- Every flag set in `a` is set in `b` (10_state.md R27). -/
def FlagsKept (a b : BitVec 8) : Prop := a &&& b = a

theorem FlagsKept.refl (a : BitVec 8) : FlagsKept a a := BitVec.and_self

theorem FlagsKept.trans {a b c : BitVec 8} (hab : FlagsKept a b) (hbc : FlagsKept b c) : FlagsKept a c := by
  unfold FlagsKept at *
  rw [← hab, BitVec.and_assoc, hbc]

/-- Raising a flag clears none (00_scope.md R15). -/
theorem flagsKept_raiseFlag (f : Flag) (flags : BitVec 8) : FlagsKept flags (raiseFlag f flags) := by
  unfold FlagsKept raiseFlag
  ext j hj
  simpa using Or.inl

/-- An enqueue clears no flag (43_callback_queue.md R231). -/
theorem flagsKept_enqueueFlags (q : CallbackQueue) (flags : BitVec 8) : FlagsKept flags (enqueueFlags q flags) := by
  unfold enqueueFlags
  split
  · exact flagsKept_raiseFlag _ _
  · exact .refl flags

/-- One voice's share of a pass clears no flag (42_mixer.md R208, R209). -/
theorem State.mixVoice_flagsKept (s : State) (buf : Nat) (v : Voice) (acc : MixAcc) :
    FlagsKept acc.flags (s.mixVoice buf v acc).2.flags := by
  rcases s.mixVoice_cases buf v acc with ⟨-, h⟩ | ⟨-, v', m, -, h⟩ | ⟨-, v', m, -, h⟩ | ⟨-, v', m, -, h⟩ <;> rw [h]
  · exact .refl _
  · exact .refl _
  · exact flagsKept_raiseFlag _ _
  · exact flagsKept_enqueueFlags _ _

/-- Every effect but those of `CLRERR` and `RESET` leaves the set flags set (10_state.md R27). -/
theorem Effect.flagsKept {s u : State} {i : Instr} (h : Effect s i u) (hclr : ∀ n, i ≠ .clrerr n) (hreset : i ≠ .reset) :
    FlagsKept s.errflags u.errflags := by
  cases h with
  | opl _ h => rw [h.same]; exact .refl _
  | channels chans hi h => rw [h.same]; exact .refl _
  | setmusicvol h => rw [h.same]; exact .refl _
  | tbload => rw [s.releaseActive_same]; exact .refl _
  | drain => rw [State.advance_frame_eq]; exact .refl _
  | cback => rw [State.advance_frame_eq]; exact .refl _
  | reset => exact absurd rfl hreset
  | clrerr imm8 => exact absurd rfl (hclr imm8)
  | @play fmt k v hargs hv =>
    unfold State.played
    split
    · exact flagsKept_enqueueFlags _ _
    · exact .refl _
  | mix hargs hpass =>
    have hkept := s.mixVoices_acc s.opAddr (fun acc => FlagsKept s.errflags acc.flags)
      (fun v acc hacc => hacc.trans (s.mixVoice_flagsKept _ v acc)) s.voices
      ⟨s.mixBed s.opAddr, s.cbq, s.errflags, 0⟩ (.refl _)
    rwa [hpass] at hkept
  | unchanged | adjusts | stopall | setmastervol | setrevstereo | setmusicgen | setlpf => exact .refl _

/-- Settles O24: a failure raises a flag, and the effects in question keep the set ones. -/
theorem stickyFlagsStaySet : Obligations.StickyFlagsStaySet := by
  intro i s t h hclr hreset
  rcases exec_next_cases h with ⟨e, rfl⟩ | ⟨u, r, heff, rfl⟩
  · exact flagsKept_raiseFlag _ _
  · exact heff.flagsKept hclr hreset

end Sys2Proof.Machine

/-! ## Generations (10_state.md R36 (I4), 40_voice_pool.md R131) -/

namespace Sys2Proof.Machine

/-- The generations of the slots, in slot order. -/
def State.gens (s : State) : List (BitVec 24) := s.voices.map (·.gen)

/-- No two of the generations are the same but for 0, and none is ahead of `g`. -/
def GensOk (g : BitVec 24) (gens : List (BitVec 24)) : Prop :=
  (∀ a ∈ gens, a.toNat ≤ g.toNat) ∧ gens.Pairwise fun a b => a = b → a = 0

/-- 10_state.md R36 (I4), as a property of `GEN` and the generations alone. -/
theorem State.gensDistinct_iff (s : State) : s.GensDistinct ↔ GensOk s.gen s.gens := by
  unfold State.GensDistinct GensOk State.gens
  rw [List.forall_mem_map, List.pairwise_map]

/-- I4 holds of a state that has the `GEN` and the generations of one for which it holds. -/
theorem State.GensDistinct.of_same {s t : State} (h : s.GensDistinct) (hgen : t.gen = s.gen) (hgens : t.gens = s.gens) :
    t.GensDistinct := by
  rw [State.gensDistinct_iff] at *
  rwa [hgen, hgens]

/-- I4 holds when every generation is 0. -/
theorem State.gensDistinct_of_zero {s : State} (h : ∀ v ∈ s.voices, v.gen = 0) : s.GensDistinct :=
  ⟨fun v hv => by simp [h v hv], List.pairwise_of_forall_mem_list fun v hv _ _ _ => h v hv⟩

/-- After a reset every generation is 0 (10_state.md R49). -/
theorem State.HasResetValues.gensDistinct {s : State} (h : s.HasResetValues) : s.GensDistinct :=
  State.gensDistinct_of_zero fun v hv => (h.voices v hv).2.1

/-- A pairwise property survives a write of an element that has it with every other. -/
theorem pairwise_set_of_forall {α : Type} {R : α → α → Prop} {l : List α} (h : l.Pairwise R) (k : Nat) {a : α}
    (ha : ∀ b ∈ l, R a b ∧ R b a) : (l.set k a).Pairwise R := by
  induction h generalizing k with
  | nil => simp
  | @cons b l hb hl ih =>
    have htail : ∀ c ∈ l, R a c ∧ R c a := fun c hc => ha c (List.mem_cons_of_mem b hc)
    cases k with
    | zero => exact List.pairwise_cons.2 ⟨fun c hc => (htail c hc).1, hl⟩
    | succ k =>
      refine List.pairwise_cons.2 ⟨fun c hc => ?_, ih k htail⟩
      rcases List.mem_or_eq_of_mem_set hc with hc | rfl
      · exact hb c hc
      · exact (ha b List.mem_cons_self).2

/-- A fresh generation, one past all the others, keeps I4 (40_voice_pool.md R131). -/
theorem GensOk.set_succ {g : BitVec 24} {gens : List (BitVec 24)} (h : GensOk g gens) (hg : g ≠ 0xFFFFFF) (k : Nat) :
    GensOk (g + 1) (gens.set k (g + 1)) := by
  obtain ⟨hle, hdistinct⟩ := h
  have hsucc : (g + 1).toNat = g.toNat + 1 := by bv_omega
  have hfresh : ∀ a ∈ gens, a ≠ g + 1 := by
    rintro a ha rfl
    have := hle _ ha
    omega
  refine ⟨fun a ha => ?_, pairwise_set_of_forall hdistinct k fun a ha => ?_⟩
  · rcases List.mem_or_eq_of_mem_set ha with ha | rfl
    · have := hle a ha
      omega
    · exact le_refl _
  · exact ⟨fun he => absurd he.symm (hfresh a ha), fun he => absurd he (hfresh a ha)⟩

/-- Adjusting a voice keeps its generation (40_voice_pool.md R141 to R145). -/
theorem Voice.Adjusted.gen_eq {c : Config} {v v' : Voice} (h : v.Adjusted c v') : v'.gen = v.gen := by
  cases h <;> rfl

/-- Writing a voice of the same generation keeps the generations. -/
theorem State.setVoice_gens {s : State} {k : Nat} {v v' : Voice} (hv : s.voices[k]? = some v) (hgen : v'.gen = v.gen) :
    (s.setVoice k v').gens = s.gens := by
  obtain ⟨hk, rfl⟩ := List.getElem?_eq_some_iff.1 hv
  have hget : s.voices[k].gen = (s.voices.map (·.gen))[k]'(by simpa using hk) := by simp
  unfold State.gens
  rw [State.setVoice_voices, List.map_set, hgen, hget, List.set_getElem_self]

/-- One voice's share of a pass keeps its generation (42_mixer.md R200). -/
theorem State.mixVoice_gen (s : State) (buf : Nat) (v : Voice) (acc : MixAcc) : (s.mixVoice buf v acc).1.gen = v.gen := by
  have hpass := s.mixFrames_induct (s.gains v) (fun w => w.gen = v.gen) (fun _ _ h => h) (fun _ _ h => h)
    (fun w m h => by rw [Voice.refill_frame]; exact h) s.cfg.nf buf refillCap v acc.mem rfl
  rcases s.mixVoice_cases buf v acc with ⟨-, h⟩ | ⟨-, v', m, hm, h⟩ | ⟨-, v', m, hm, h⟩ | ⟨-, v', m, hm, h⟩ <;> rw [h]
  all_goals rw [hm] at hpass; exact hpass

/-- A pass keeps the generations (42_mixer.md R203). -/
theorem State.mixVoices_gens (s : State) (buf : Nat) (vs : List Voice) (acc : MixAcc) :
    (s.mixVoices buf vs acc).1.map (·.gen) = vs.map (·.gen) := by
  induction vs generalizing acc with
  | nil => rfl
  | cons v vs ih => rw [State.mixVoices_cons, List.map_cons, List.map_cons, ih, State.mixVoice_gen]

/-- Every effect of a command keeps I4 while `GEN` has not reached its last value. -/
theorem Effect.gensDistinct {s u : State} {i : Instr} (h : Effect s i u) (hs : s.GensDistinct) (hg : s.gen ≠ 0xFFFFFF) :
    u.GensDistinct := by
  cases h with
  | opl _ h => rw [h.same]; exact hs
  | channels chans hi h => rw [h.same]; exact hs
  | setmusicvol h => rw [h.same]; exact hs
  | tbload => rw [s.releaseActive_same]; exact hs
  | drain => rw [State.advance_frame_eq]; exact hs
  | cback => rw [State.advance_frame_eq]; exact hs
  | reset => exact s.cleared_hasResetValues.gensDistinct
  | adjusts _ hv h => exact hs.of_same rfl (State.setVoice_gens hv h.gen_eq)
  | stopall => exact hs.of_same rfl (by simp [State.gens])
  | mix hargs hpass =>
    have hgens := s.mixVoices_gens s.opAddr s.voices ⟨s.mixBed s.opAddr, s.cbq, s.errflags, 0⟩
    rw [hpass] at hgens
    exact hs.of_same rfl hgens
  | @play fmt k v hargs hv =>
    have hnext : nextGen s.gen = s.gen + 1 := if_neg hg
    have hok := ((State.gensDistinct_iff s).1 hs).set_succ hg k
    rw [State.gensDistinct_iff, State.gens, State.played, List.map_set, hnext]
    exact hok
  | unchanged | clrerr | setmastervol | setrevstereo | setmusicgen | setlpf => exact hs

/-- Every host access keeps I4 while `GEN` has not reached its last value. -/
theorem HostAction.apply_gensDistinct {a : HostAction} {s t : State} (hs : s.GensDistinct) (hg : s.gen ≠ 0xFFFFFF)
    (h : a.apply s = .next t) : t.GensDistinct := by
  rcases HostAction.apply_cases h with ⟨_, _, _, -, -, -, rfl⟩ | ⟨_, -, -, rfl⟩ | ⟨w, -, -, hrun⟩ | ⟨_, _, -, rfl⟩ |
    ⟨_, _, rfl⟩ | ⟨_, _, -, rfl⟩ | ⟨-, rfl⟩
  case inr.inr.inl =>
    obtain ⟨u, rfl, ⟨i, -, hexec⟩ | ⟨e, -, rfl⟩⟩ := State.runCommand_cases hrun
    · rcases exec_next_cases hexec with ⟨e, rfl⟩ | ⟨u', r, heff, rfl⟩
      · exact hs
      · exact heff.gensDistinct hs hg
    · exact hs
  case inr.inr.inr.inr.inr.inr => exact s.hardwareReset_hasResetValues.gensDistinct
  all_goals exact hs

/-- Settles O18: `PLAY` gives its slot a fresh generation, a reset zeroes all, and nothing else changes one. -/
theorem stepKeepsGenerationsDistinct : Obligations.StepKeepsGenerationsDistinct := by
  intro s t hs hg h
  obtain ⟨-, ⟨-, rfl⟩ | ⟨a, rest, -, happly⟩⟩ := step_cases h
  · exact hs
  · exact HostAction.apply_gensDistinct (s := { s with hostq := rest }) hs hg happly

end Sys2Proof.Machine

/-! ## The invariant (10_state.md R36, R40, R41; 40_voice_pool.md R149; 44_opl_allocator.md R250)

`State.Inv` asks for `BUSY = 0`, which a command does not meet while it runs. `State.Sound` is the rest of it, voice by voice;
every effect of a command keeps it, and so does every host access. -/

namespace Sys2Proof.Machine

/-- What `State.Inv` asks of one voice slot. -/
structure Voice.Sound (v : Voice) : Prop where
  lbuf   : v.lbuf.length = 256
  buffer : v.BufferOk
  source : v.SourceOk
  rates  : v.RatesOk

/-- `State.Inv` without `BUSY = 0`. -/
structure State.Sound (s : State) : Prop where
  parameters : s.cfg.wf = true
  memory     : s.mem.wf
  slots      : s.voices.length = s.cfg.nv
  voices     : ∀ v ∈ s.voices, v.Sound
  queue      : s.cbq.Ok
  session    : s.SessionOk
  filter     : s.alpha.toNat + s.beta.toNat ≤ 256
  bank       : s.tb.length = 3328
  opl        : s.OplOk
  errorCode  : s.err.toNat ≤ 5

/-- A good state is a sound one that is not busy. -/
theorem State.inv_iff (s : State) : s.Inv ↔ s.busy = false ∧ s.Sound := by
  constructor
  · intro h
    exact ⟨h.idle, { h with
      voices := fun v hv => ⟨h.lbufs v hv, h.buffers v hv, h.sources v hv, h.rates v hv⟩ }⟩
  · rintro ⟨hidle, h⟩
    exact { h with
      idle := hidle
      lbufs := fun v hv => (h.voices v hv).lbuf
      buffers := fun v hv => (h.voices v hv).buffer
      sources := fun v hv => (h.voices v hv).source
      rates := fun v hv => (h.voices v hv).rates }

/-! ### Voices -/

/-- An inactive slot with a whole buffer is sound: the rest of the invariant speaks of active voices. -/
theorem Voice.sound_of_idle {v : Voice} (hactive : v.active = false) (hlbuf : v.lbuf.length = 256) : v.Sound where
  lbuf := hlbuf
  buffer h := by simp [hactive] at h
  source h := by simp [hactive] at h
  rates h := by simp [hactive] at h

/-- The step that `calcstep` computes is in its range for every rate, pitch and output rate (10_state.md R35,
40_voice_pool.md R138): the adjusted rate is in 1000..48000. -/
theorem calcstep_range {c : Config} (hc : c.wf = true) (rate : Nat) (pitch : Int) :
    66 ≤ (calcstep c rate pitch).toNat ∧ (calcstep c rate pitch).toNat ≤ 3145728 := by
  obtain ⟨-, ⟨hlo, hhi⟩, -⟩ := Config.ranges_of_wf hc
  have hadj := clamp_bounds (v := rate + ((rate : Int) * pitch).tdiv 2048) (show (1000 : Int) ≤ 48000 by omega)
  have hpos : (0 : Int) < c.fOut := by omega
  unfold calcstep
  extract_lets adj
  have hlow : 66 ≤ (adj * 65536 + (c.fOut / 2 : Nat)) / (c.fOut : Int) := by
    rw [Int.le_ediv_iff_mul_le hpos]
    omega
  have hhigh : (adj * 65536 + (c.fOut / 2 : Nat)) / (c.fOut : Int) < 3145729 := by
    rw [Int.ediv_lt_iff_lt_mul hpos]
    omega
  rw [BitVec.toNat_ofInt]
  omega

/-- Adjusting a voice keeps it sound (40_voice_pool.md R141 to R145). -/
theorem Voice.Adjusted.sound {c : Config} {v v' : Voice} (hc : c.wf = true) (h : v.Adjusted c v') (hv : v.Sound) :
    v'.Sound := by
  cases h with
  | stopped => exact Voice.sound_of_idle rfl hv.lbuf
  | panned l r => exact ⟨hv.lbuf, hv.buffer, hv.source, hv.rates⟩
  | retuned base pitch rate p hbase =>
    refine ⟨hv.lbuf, hv.buffer, hv.source, fun ha => ?_⟩
    obtain ⟨-, -, hrate, hgen⟩ := hv.rates ha
    obtain ⟨hlow, hhigh⟩ := calcstep_range hc rate p
    refine ⟨hlow, hhigh, ?_, hgen⟩
    rcases hbase with rfl | hbase
    · exact hrate
    · have : base.toNat ≠ 0 := fun h0 => hbase (BitVec.eq_of_toNat_eq h0)
      exact Nat.one_le_iff_ne_zero.2 this

/-! ### Starting a voice (40_voice_pool.md R136, R139) -/

/-- What the argument checks of `PLAY` leave (40_voice_pool.md R136): the source lies in the address space and holds the
header and a unit, and a loop lies behind the header inside the source and holds a unit. -/
theorem playArgsOk_bounds {fmt : BitVec 4} {s : State} (h : playArgsOk fmt s = true) :
    s.opAddr + s.opLen ≤ 2 ^ 32 ∧ playHdr s.cfg fmt + playUnit fmt ≤ s.opLen ∧
      (fmtLoop fmt = true → playHdr s.cfg fmt ≤ s.opLoopStart ∧ s.opLoopStart + playUnit fmt ≤ s.opLoopEnd ∧
        s.opLoopEnd ≤ s.opLen) := by
  simp only [playArgsOk, Bool.and_eq_true, Bool.or_eq_true, decide_eq_true_eq, Bool.not_eq_true', and_assoc] at h
  obtain ⟨-, hspace, hlen, hloop⟩ := h
  refine ⟨hspace, hlen, fun hl => ?_⟩
  rcases hloop with hno | hloop
  · rw [hl] at hno; cases hno
  · exact hloop

/-- The voice of `init_voice` (40_voice_pool.md R139) when the decoder has started, before the prefill. -/
def Voice.readied (v : Voice) (fmt : BitVec 4) (s : State) : Voice :=
  if fmtAdpcm fmt then (v.programmed fmt s).adpcmStart s.cfg s.mem else v.programmed fmt s

/-- `init_voice` ends with the prefill. -/
theorem Voice.started_eq (v : Voice) (fmt : BitVec 4) (s : State) :
    v.started fmt s = (v.readied fmt s).refill s.cfg s.mem := rfl

/-- The start of the decoder moves the cursor over the header and touches nothing else but the decoder's state
(41_refill_adpcm.md R175, R179). -/
theorem Voice.readied_eq (v : Voice) (fmt : BitVec 4) (s : State) :
    v.readied fmt s =
      { v.programmed fmt s with
        srcCur := BitVec.ofNat 32 (s.opAddr + playHdr s.cfg fmt), ad := (v.readied fmt s).ad } := by
  unfold Voice.readied Voice.adpcmStart playHdr
  cases fmtAdpcm fmt with
  | false => rfl
  | true =>
    cases s.cfg.variant with
    | a => simp [Voice.programmed, BitVec.ofNat_add]
    | b => rfl

/-- An end address survives being held in 32 bits (log 7). -/
theorem endAddress_ofNat {n : Nat} (hpos : 0 < n) (hle : n ≤ 2 ^ 32) : endAddress (BitVec.ofNat 32 n) = n := by
  unfold endAddress
  rcases Nat.lt_or_eq_of_le hle with hlt | rfl
  · have hn : (BitVec.ofNat 32 n).toNat = n := Nat.mod_eq_of_lt hlt
    have hne : BitVec.ofNat 32 n ≠ 0 := fun h0 => by rw [h0] at hn; exact hpos.ne hn
    rw [if_neg hne, hn]
  · rfl

/-- The bytes between two addresses, the later one possibly `2^32` (log 7). -/
theorem toNat_ofNat_sub_ofNat {a b : Nat} (hle : b ≤ a) (hlt : a - b < 2 ^ 32) :
    (BitVec.ofNat 32 a - BitVec.ofNat 32 b).toNat = a - b := by
  rw [BitVec.toNat_sub, BitVec.toNat_ofNat, BitVec.toNat_ofNat]
  omega

/-- The length operand fits its register. -/
theorem State.opLen_lt (s : State) : s.opLen < 2 ^ 32 := BitVec.isLt _

/-- A decode unit of `PLAY` has at least one byte (40_voice_pool.md R136). -/
theorem playUnit_pos (fmt : BitVec 4) : 1 ≤ playUnit fmt := by
  unfold playUnit
  split <;> omega

/-- A voice started from accepted arguments has its source in order (10_state.md R36 (I3)). -/
theorem Voice.readied_sourceOk (v : Voice) {fmt : BitVec 4} {s : State} (hargs : playArgsOk fmt s = true) :
    (v.readied fmt s).SourceOk := by
  obtain ⟨hspace, hlen, hloop⟩ := playArgsOk_bounds hargs
  have hunit := playUnit_pos fmt
  have hlt := s.opLen_lt
  rw [Voice.readied_eq]
  intro _
  have hcur : (BitVec.ofNat 32 (s.opAddr + playHdr s.cfg fmt)).toNat = s.opAddr + playHdr s.cfg fmt :=
    Nat.mod_eq_of_lt (by omega)
  have hend : endAddress (BitVec.ofNat 32 (s.opAddr + s.opLen)) = s.opAddr + s.opLen :=
    endAddress_ofNat (by omega) hspace
  refine ⟨?_, fun hl => ?_⟩
  · simp only [Voice.programmed, hcur, hend]
    omega
  · have hl' : fmtLoop fmt = true := hl
    obtain ⟨hls, hle, hle'⟩ := hloop hl'
    have hstart : (BitVec.ofNat 32 (s.opAddr + s.opLoopStart)).toNat = s.opAddr + s.opLoopStart :=
      Nat.mod_eq_of_lt (by omega)
    have hloopEnd : endAddress (BitVec.ofNat 32 (s.opAddr + s.opLoopEnd)) = s.opAddr + s.opLoopEnd :=
      endAddress_ofNat (by omega) (by omega)
    have hsize := toNat_ofNat_sub_ofNat (a := s.opAddr + s.opLoopEnd) (b := s.opAddr + s.opLoopStart)
      (by omega) (by omega)
    simp only [Voice.programmed, Voice.unit, hl', if_true, hcur, hend, hstart, hloopEnd, hsize]
    unfold playUnit at hle hunit
    omega

/-- A voice started from accepted arguments has a unit to decode (40_voice_pool.md R136). -/
theorem Voice.readied_unitsLeft (v : Voice) {fmt : BitVec 4} {s : State} (hargs : playArgsOk fmt s = true) :
    (v.readied fmt s).unitsLeft ≠ 0 := by
  obtain ⟨hspace, hlen, hloop⟩ := playArgsOk_bounds hargs
  have hunit := playUnit_pos fmt
  have hlt := s.opLen_lt
  have hbytes : playUnit fmt ≤ (v.readied fmt s).bytesLeft := by
    rw [Voice.readied_eq]
    simp only [Voice.bytesLeft, Voice.effEnd, Voice.programmed]
    by_cases hl : fmtLoop fmt = true
    · obtain ⟨hls, hle, hle'⟩ := hloop hl
      simp only [hl, if_true]
      rw [toNat_ofNat_sub_ofNat (by omega) (by omega)]
      omega
    · simp only [if_neg hl]
      rw [toNat_ofNat_sub_ofNat (by omega) (by omega)]
      omega
  have hsame : (v.readied fmt s).unit = playUnit fmt := by rw [Voice.readied_eq]; rfl
  unfold Voice.unitsLeft
  rw [hsame]
  exact (Nat.div_pos hbytes hunit).ne'

/-- A voice that `PLAY` starts is sound (40_voice_pool.md R139; 10_state.md R36). -/
theorem Voice.started_sound {v : Voice} {fmt : BitVec 4} {s : State} {g : BitVec 24} (hc : s.cfg.wf = true)
    (hargs : playArgsOk fmt s = true) (hlbuf : v.lbuf.length = 256) (hg : g ≠ 0) :
    Voice.Sound { v.started fmt s with gen := g } := by
  have hsource := Voice.refill_sourceOk (v.readied_sourceOk hargs) s.cfg s.mem
  have hlen : (v.readied fmt s).lbuf.length = 256 := by rw [Voice.readied_eq]; exact hlbuf
  have hcount : 1 ≤ ((v.readied fmt s).refill s.cfg s.mem).lcount.toNat := by
    have hunits := v.readied_unitsLeft hargs
    rcases (v.readied fmt s).refill_cases s.cfg s.mem with ⟨-, h⟩ | ⟨h0, -⟩ | ⟨h0, -⟩
    · rw [h, Voice.fill_lcount]
      split <;> omega
    · exact absurd h0 hunits
    · exact absurd h0 hunits
  have hmax := (v.readied fmt s).refill_lcount_le s.cfg s.mem
  rw [Voice.started_eq]
  refine ⟨Voice.refill_lbuf_length _ _ _ hlen, fun _ => ⟨hcount, hmax, ?_⟩, hsource, fun _ => ?_⟩
  · have hpos : ((v.readied fmt s).refill s.cfg s.mem).pos = 0 := by rw [Voice.refill_frame, Voice.readied_eq]; rfl
    simp only [Voice.posIndex, hpos]
    exact hcount
  · obtain ⟨hlow, hhigh⟩ := calcstep_range hc s.opRate s.opPitch
    have hbase := s.opRate_toNat
    have hpos := s.opRate_pos
    rw [Voice.refill_frame, Voice.readied_eq]
    exact ⟨hlow, hhigh, by simp only [Voice.programmed]; omega, hg⟩

/-! ### The mix (42_mixer.md) -/

/-- What a voice keeps through frames and refills, whatever its position. -/
def Voice.Playable (v : Voice) : Prop := v.lbuf.length = 256 ∧ v.lcount.toNat ≤ 256 ∧ v.SourceOk ∧ v.RatesOk

/-- A refill keeps a voice playable (41_refill_adpcm.md R171). -/
theorem Voice.Playable.refill {v : Voice} (h : v.Playable) (c : Config) (m : Memory) : (v.refill c m).Playable := by
  obtain ⟨hlbuf, -, hsource, hrates⟩ := h
  refine ⟨v.refill_lbuf_length c m hlbuf, v.refill_lcount_le c m, Voice.refill_sourceOk hsource c m, ?_⟩
  rw [Voice.refill_frame]
  exact hrates

/-- A playable voice with samples and its position inside them is sound. -/
theorem Voice.Playable.sound {v : Voice} (h : v.Playable) (hcount : v.lcount ≠ 0) (hpos : v.posIndex < v.lcount.toNat) :
    v.Sound := by
  obtain ⟨hlbuf, hmax, hsource, hrates⟩ := h
  have hne : v.lcount.toNat ≠ 0 := fun h0 => hcount (BitVec.eq_of_toNat_eq h0)
  exact ⟨hlbuf, fun _ => ⟨Nat.one_le_iff_ne_zero.2 hne, hmax, hpos⟩, hsource, hrates⟩

/-- A sound voice that takes part in a pass (42_mixer.md R203) is playable, with samples and its position inside them. -/
theorem Voice.Sound.playable {v : Voice} (h : v.Sound) (hpart : v.takesPart = true) :
    v.Playable ∧ v.lcount ≠ 0 ∧ v.posIndex < v.lcount.toNat := by
  obtain ⟨hactive, hcount⟩ := Bool.and_eq_true_iff.1 hpart
  obtain ⟨-, hmax, hpos⟩ := h.buffer hactive
  exact ⟨⟨h.lbuf, hmax, h.source, h.rates⟩, by simpa using hcount, hpos⟩

/-- A voice's frames keep it playable (42_mixer.md R200). -/
theorem State.mixFrames_playable (s : State) (g : Nat × Nat) (n a left : Nat) {v : Voice} (m : Memory) (h : v.Playable) :
    (s.mixFrames g n a left v m).1.Playable :=
  s.mixFrames_induct g Voice.Playable (fun _ _ h => h) (fun _ _ h => h) (fun _ m h => h.refill s.cfg m) n a left v m h

/-- One voice's share of a pass keeps it sound (42_mixer.md R200): it plays on with its position inside the buffer, is capped
at position 0, or is finalized. -/
theorem State.mixVoice_sound (s : State) (buf : Nat) {v : Voice} (acc : MixAcc) (hv : v.Sound) :
    (s.mixVoice buf v acc).1.Sound := by
  have hframes (hpart : v.takesPart = true) {v' : Voice} {m : Memory} {e : FrameEnd}
      (hm : s.mixFrames (s.gains v) s.cfg.nf buf refillCap v acc.mem = (v', m, e)) :
      v'.Playable ∧
        ((e = .playing ∧ v'.lcount ≠ 0 ∧ v'.posIndex < v'.lcount.toNat) ∨
         (e = .ended ∧ v'.lcount = 0 ∧ v'.pos = 0) ∨ (e = .capped ∧ v'.lcount ≠ 0 ∧ v'.pos = 0)) := by
    obtain ⟨hplay, hcount, hpos⟩ := hv.playable hpart
    have hkept := s.mixFrames_playable (s.gains v) s.cfg.nf buf refillCap acc.mem hplay
    have hend := s.mixFrames_end (s.gains v) s.cfg.nf buf refillCap v acc.mem hcount hpos
    rw [hm] at hkept hend
    exact ⟨hkept, hend⟩
  rcases s.mixVoice_cases buf v acc with ⟨-, h⟩ | ⟨hpart, v', m, hm, h⟩ | ⟨hpart, v', m, hm, h⟩ | ⟨hpart, v', m, hm, h⟩ <;>
    rw [h]
  · exact hv
  · obtain ⟨hplay, ⟨-, hcount, hpos⟩ | ⟨he, -⟩ | ⟨he, -⟩⟩ := hframes hpart hm
    · exact hplay.sound hcount hpos
    · cases he
    · cases he
  · obtain ⟨hplay, ⟨he, -⟩ | ⟨he, -⟩ | ⟨-, hcount, hpos⟩⟩ := hframes hpart hm
    · cases he
    · cases he
    · have hne : v'.lcount.toNat ≠ 0 := fun h0 => hcount (BitVec.eq_of_toNat_eq h0)
      exact hplay.sound hcount (by simpa [Voice.posIndex, hpos] using Nat.pos_of_ne_zero hne)
  · obtain ⟨⟨hlbuf, -⟩, -⟩ := hframes hpart hm
    exact Voice.sound_of_idle rfl hlbuf

/-- An enqueue keeps the queue in order (10_state.md R40, 43_callback_queue.md R231). -/
theorem CallbackQueue.enqueue_ok {q : CallbackQueue} (h : q.Ok) (t : Word) : (q.enqueue t).Ok := by
  rcases q.enqueue_cases t with ⟨-, he⟩ | ⟨hne, he⟩ <;> rw [he]
  · exact h
  · obtain ⟨hcount, htail⟩ := h
    have hlt : q.count.toNat ≠ 32 := fun h32 => hne (BitVec.eq_of_toNat_eq h32)
    simp only [CallbackQueue.Ok, CallbackQueue.push_head, CallbackQueue.push_tail, CallbackQueue.push_count]
    bv_omega

/-- A pop from a queue that holds a token keeps it in order (10_state.md R40, 43_callback_queue.md R232). -/
theorem CallbackQueue.pop_ok {q : CallbackQueue} (h : q.Ok) (hne : q.count ≠ 0) : q.pop.Ok := by
  obtain ⟨hcount, htail⟩ := h
  have hpos : q.count.toNat ≠ 0 := fun h0 => hne (BitVec.eq_of_toNat_eq h0)
  simp only [CallbackQueue.Ok, CallbackQueue.pop_head, CallbackQueue.pop_tail, CallbackQueue.pop_count]
  bv_omega

/-- One voice's share of a pass keeps the memory canonical and the queue in order. -/
theorem State.mixVoice_acc_ok (s : State) {buf : Nat} (hbuf : buf + 4 * s.cfg.nf ≤ 2 ^ 32) (v : Voice) {acc : MixAcc}
    (h : acc.mem.wf ∧ acc.cbq.Ok) : (s.mixVoice buf v acc).2.mem.wf ∧ (s.mixVoice buf v acc).2.cbq.Ok := by
  have hmem := s.mixFrames_mem_induct (s.gains v) Memory.wf buf (2 ^ 32)
    (fun a v m _ ha hm => s.mixFrameMem_wf _ v hm ha) s.cfg.nf buf refillCap v acc.mem (le_refl _) hbuf h.1
  rcases s.mixVoice_cases buf v acc with ⟨-, hc⟩ | ⟨-, v', m, hm, hc⟩ | ⟨-, v', m, hm, hc⟩ | ⟨-, v', m, hm, hc⟩ <;> rw [hc]
  · exact h
  all_goals rw [hm] at hmem
  · exact ⟨hmem, h.2⟩
  · exact ⟨hmem, h.2⟩
  · exact ⟨hmem, CallbackQueue.enqueue_ok h.2 _⟩

/-! ### The drain session (43_callback_queue.md) -/

/-- In an open session `advance()` leaves the session and the queue in order (43_callback_queue.md R233). -/
theorem State.advance_ok {s : State} (hopen : s.draining = true) (hleft : s.drainLeft.toNat ≤ 8) (hq : s.cbq.Ok) :
    s.advance.SessionOk ∧ s.advance.cbq.Ok := by
  rcases s.advance_cases with ⟨hcount, hbudget, h⟩ | ⟨-, h⟩ <;> rw [h]
  · have hless : (s.drainLeft - 1).toNat ≤ 8 := by
      have : s.drainLeft.toNat ≠ 0 := fun h0 => hbudget (BitVec.eq_of_toNat_eq h0)
      bv_omega
    exact ⟨⟨hopen.symm, hless, fun hclosed => by simp [hopen] at hclosed⟩, CallbackQueue.pop_ok hq hcount⟩
  · exact ⟨⟨rfl, Nat.zero_le _, fun _ => rfl⟩, hq⟩

/-! ### Every effect of a command -/

/-- Work on the OPL side keeps a state sound (44_opl_allocator.md R250). -/
theorem State.Sound.opl_work {s u : State} (h : s.Sound) (hw : s.OplWork u) : u.Sound := by
  have hopl := hw.ok h.opl
  rw [hw.same] at hopl ⊢
  exact { h with opl := hopl }

/-- An emptied queue is in order (10_state.md R49). -/
theorem CallbackQueue.cleared_ok (event : Nat) : (CallbackQueue.cleared event).Ok := ⟨Nat.zero_le 32, rfl⟩

/-- What both resets leave is sound (10_state.md R49). -/
theorem State.Sound.cleared {s : State} (h : s.Sound) : s.cleared.Sound where
  parameters := h.parameters
  memory := h.memory
  slots := by simp
  voices v hv := by
    obtain ⟨slot, -, rfl⟩ := List.mem_map.1 hv
    exact Voice.sound_of_idle rfl (by simp [Voice.cleared])
  queue := CallbackQueue.cleared_ok s.freeCtr
  session := ⟨rfl, Nat.zero_le 8, fun _ => rfl⟩
  filter := by simp
  bank := s.cleared_tb_length
  opl k := by
    rw [State.cleared_ovoices, Vector.get_replicate]
    exact OplVoice.ok_of_idle rfl rfl
  errorCode := Nat.zero_le 5

/-- A hardware reset leaves a sound state (10_state.md R49). -/
theorem State.Sound.hardwareReset {s : State} (h : s.Sound) : s.hardwareReset.Sound := by
  have hcleared := h.cleared
  rw [State.hardwareReset_eq, State.cleared_complete]
  generalize s.cleared = t at hcleared ⊢
  exact { hcleared with }

/-- Writing a sound voice keeps the state sound. -/
theorem State.Sound.setVoice {s : State} (h : s.Sound) (k : Nat) {v : Voice} (hv : v.Sound) : (s.setVoice k v).Sound :=
  { h with
    slots := by rw [State.setVoice_voices, List.length_set]; exact h.slots
    voices := fun w hw => by
      rcases List.mem_or_eq_of_mem_set hw with hw | rfl
      · exact h.voices w hw
      · exact hv }

/-- An accepted `PLAY` keeps the state sound (40_voice_pool.md R136). -/
theorem State.Sound.played {s : State} (h : s.Sound) {fmt : BitVec 4} {k : Nat} {v : Voice}
    (hargs : playArgsOk fmt s = true) (hv : v ∈ s.voices) : (s.played fmt k v).Sound := by
  have hvoice := Voice.started_sound h.parameters hargs (h.voices v hv).lbuf (nextGen_ne_zero s.gen)
  exact { h.setVoice k hvoice with
    queue := by
      simp only [State.played]
      split
      · exact CallbackQueue.enqueue_ok h.queue _
      · exact h.queue }

/-- A pass with a legal buffer keeps the state sound (42_mixer.md R200). -/
theorem State.Sound.mixed {s : State} (h : s.Sound) {vs : List Voice} {acc : MixAcc} (hargs : s.mixArgsOk = true)
    (hpass : s.mixVoices s.opAddr s.voices ⟨s.mixBed s.opAddr, s.cbq, s.errflags, 0⟩ = (vs, acc)) :
    State.Sound { s with voices := vs, mem := acc.mem, cbq := acc.cbq, errflags := acc.flags } := by
  obtain ⟨-, hbuf⟩ := Bool.and_eq_true_iff.1 hargs
  replace hbuf : s.opAddr + 4 * s.cfg.nf ≤ 2 ^ 32 := of_decide_eq_true hbuf
  have hvoices := s.mixVoices_forall s.opAddr Voice.Sound (fun v acc hv => s.mixVoice_sound _ acc hv) s.voices
    ⟨s.mixBed s.opAddr, s.cbq, s.errflags, 0⟩ h.voices
  have hacc := s.mixVoices_acc s.opAddr (fun acc => acc.mem.wf ∧ acc.cbq.Ok)
    (fun v _ ha => s.mixVoice_acc_ok hbuf v ha) s.voices ⟨s.mixBed s.opAddr, s.cbq, s.errflags, 0⟩
    ⟨s.mixBed_wf h.memory hbuf, h.queue⟩
  have hlen := s.mixVoices_length s.opAddr s.voices ⟨s.mixBed s.opAddr, s.cbq, s.errflags, 0⟩
  rw [hpass] at hvoices hacc hlen
  exact { h with memory := hacc.1, slots := hlen.trans h.slots, voices := hvoices, queue := hacc.2 }

/-- `TBLOAD` keeps the state sound (45_fm_register_mapper.md R291): no voice sounds any more when the bank is replaced. -/
theorem State.Sound.tbload {s : State} (h : s.Sound) :
    State.Sound { s.forActiveSlots State.release with
      tb := s.mem.readBytes s.opAddr 3328
      ovoices := (s.forActiveSlots State.release).ovoices.map fun o => { o with timbre := none }
      tbValid := true } := by
  have hsound := h.opl_work (s.forActiveSlots_work fun t k => t.release_work k)
  have hidle := fun k => State.releaseActive_idle h.opl k
  generalize s.forActiveSlots State.release = t at hsound hidle ⊢
  exact { hsound with
    bank := Memory.readBytes_length _ _ _
    opl := fun k => by
      have hget : (t.ovoices.map fun o => { o with timbre := none }).get k = { t.ovoices.get k with timbre := none } := by
        simp [Vector.get_eq_getElem]
      obtain ⟨hkey, hactive⟩ := hidle k
      rw [hget]
      exact OplVoice.ok_of_idle hkey hactive }

/-- Every effect of a command keeps a sound state sound. -/
theorem Effect.sound {s u : State} {i : Instr} (h : Effect s i u) (hs : s.Sound) : u.Sound := by
  cases h with
  | opl _ h => exact hs.opl_work h
  | channels chans hi h =>
    have hchans : State.Sound { s with chans := chans } := { hs with }
    exact hchans.opl_work h
  | @setmusicvol imm8 _ h =>
    have hvol : State.Sound { s with musicVol := imm8 } := { hs with }
    exact hvol.opl_work h
  | adjusts _ hv h => exact hs.setVoice _ (h.sound hs.parameters (hs.voices _ (List.mem_of_getElem? hv)))
  | play hargs hv => exact hs.played hargs (List.mem_of_getElem? hv)
  | mix hargs hpass => exact hs.mixed hargs hpass
  | reset => exact hs.cleared
  | tbload => exact hs.tbload
  | drain =>
    obtain ⟨hsession, hqueue⟩ := State.advance_ok (s := s.openDrain) rfl (le_refl 8) hs.queue
    rw [State.advance_frame_eq] at hsession hqueue ⊢
    exact { hs with session := hsession, queue := hqueue }
  | cback hopen =>
    obtain ⟨-, hleft, -⟩ := hs.session
    obtain ⟨hsession, hqueue⟩ := State.advance_ok hopen hleft hs.queue
    rw [State.advance_frame_eq] at hsession hqueue ⊢
    exact { hs with session := hsession, queue := hqueue }
  | stopall =>
    exact { hs with
      slots := by rw [List.length_map]; exact hs.slots
      voices := fun v hv => by
        obtain ⟨w, hw, rfl⟩ := List.mem_map.1 hv
        exact Voice.sound_of_idle rfl (hs.voices w hw).lbuf }
  | setlpf en beta alpha h => exact { hs with filter := h }
  | unchanged | clrerr | setmastervol | setrevstereo | setmusicgen => exact { hs with }

/-- Every code of 60_exceptions.md R371 is at most 5. -/
theorem Failure.code_le (e : Failure) : e.code.toNat ≤ 5 := by cases e <;> decide

/-- A failure keeps a sound state sound (60_exceptions.md R371). -/
theorem State.Sound.fail {s : State} (h : s.Sound) (e : Failure) : (s.fail e).Sound := { h with errorCode := e.code_le }

/-- A command keeps a sound state sound, however it ends. -/
theorem State.Sound.exec {i : Instr} {s t : State} (hs : s.Sound) (h : exec i s = .next t) : t.Sound := by
  rcases exec_next_cases h with ⟨e, rfl⟩ | ⟨u, r, heff, rfl⟩
  · exact hs.fail e
  · exact { heff.sound hs with errorCode := Nat.zero_le 5 }

/-! ### Every step -/

/-- A command, from the write of its word to its end, leaves a good state (30_encoding.md R112). -/
theorem State.runCommand_inv {s t : State} {w : Word} (hs : s.Sound) (h : s.runCommand w = .next t) : t.Inv := by
  have hbusy : State.Sound { s with busy := true } := { hs with }
  obtain ⟨u, rfl, ⟨i, -, hexec⟩ | ⟨e, -, rfl⟩⟩ := State.runCommand_cases h
  · exact (State.inv_iff _).2 ⟨rfl, { hbusy.exec hexec with }⟩
  · exact (State.inv_iff _).2 ⟨rfl, { hbusy.fail .badCmd with }⟩

/-- Every host access keeps a good state good (10_state.md R20). -/
theorem HostAction.apply_inv {a : HostAction} {s t : State} (hidle : s.busy = false) (hs : s.Sound)
    (h : a.apply s = .next t) : t.Inv := by
  rcases HostAction.apply_cases h with ⟨_, _, _, -, -, -, rfl⟩ | ⟨_, -, hbusy, -⟩ | ⟨w, -, -, hrun⟩ | ⟨_, _, -, rfl⟩ |
    ⟨_, _, rfl⟩ | ⟨addr, b, -, rfl⟩ | ⟨-, rfl⟩
  · exact (State.inv_iff _).2 ⟨hidle, { hs with }⟩
  · rw [hidle] at hbusy
    cases hbusy
  · exact State.runCommand_inv hs hrun
  · exact (State.inv_iff _).2 ⟨hidle, hs⟩
  · exact (State.inv_iff _).2 ⟨hidle, { hs with }⟩
  · exact (State.inv_iff _).2 ⟨hidle, { hs with memory := Memory.write_wf hs.memory addr.isLt b }⟩
  · exact (State.inv_iff _).2 ⟨rfl, hs.hardwareReset⟩

/-- Settles O17: a step is idle or one host access, and a host access keeps soundness and ends with `BUSY = 0`. -/
theorem stepKeepsTheInvariant : Obligations.StepKeepsTheInvariant := by
  intro s t hinv h
  obtain ⟨hidle, hs⟩ := (State.inv_iff s).1 hinv
  obtain ⟨-, ⟨-, rfl⟩ | ⟨a, rest, -, happly⟩⟩ := step_cases h
  · exact hinv
  · exact HostAction.apply_inv (s := { s with hostq := rest }) hidle { hs with } happly

end Sys2Proof.Machine

/-! ## MEM: byte order and what `MIX` leaves alone (20_memory.md R72, R76, R84; 42_mixer.md R210) -/

namespace Sys2Proof.Machine

/-! ### Byte order -/

/-- A 16-bit read has its first byte in the low half (20_memory.md R76). -/
theorem Memory.read16_toNat (m : Memory) (a : Nat) :
    (m.read16 a).toNat = (m.read a).toNat + 256 * (m.read (a + 1)).toNat := by
  rw [Memory.read16, toNat_append_eq_add]
  omega

/-- A 16-bit write puts the low byte at its address (20_memory.md R76). -/
theorem Memory.read_write16_low (m : Memory) (a : Nat) (v : BitVec 16) :
    (m.write16 a v).read a = v.extractLsb' 0 8 := by
  rw [Memory.write16, Memory.read_write_other _ _ (by omega), Memory.read_write_same]

/-- A 16-bit write puts the high byte at the next address (20_memory.md R76). -/
theorem Memory.read_write16_high (m : Memory) (a : Nat) (v : BitVec 16) :
    (m.write16 a v).read (a + 1) = v.extractLsb' 8 8 := Memory.read_write_same _ _ _

/-- The low byte of a 16-bit value as a number. -/
theorem toNat_lowByte (v : BitVec 16) : (v.extractLsb' 0 8).toNat = v.toNat % 256 := by
  rw [BitVec.extractLsb'_toNat, Nat.shiftRight_zero]

/-- The high byte of a 16-bit value as a number. -/
theorem toNat_highByte (v : BitVec 16) : (v.extractLsb' 8 8).toNat = v.toNat / 256 := by
  rw [BitVec.extractLsb'_toNat, Nat.shiftRight_eq_div_pow]
  omega

/-- A word's value from its four bytes, the first the lowest (20_memory.md R76). -/
theorem wordOfBytes_toNat (b0 b1 b2 b3 : Byte) :
    (wordOfBytes b0 b1 b2 b3).toNat = b0.toNat + 2 ^ 8 * b1.toNat + 2 ^ 16 * b2.toNat + 2 ^ 24 * b3.toNat := by
  rw [wordOfBytes, toNat_append_eq_add, toNat_append_eq_add, toNat_append_eq_add]
  omega

/-- Laying out a word built from four bytes gives them back (20_memory.md R76). -/
theorem bytesOfWord_wordOfBytes (b0 b1 b2 b3 : Byte) :
    bytesOfWord (wordOfBytes b0 b1 b2 b3) = [b0, b1, b2, b3] := by
  have hbyte (k : Nat) (b : Byte) (h : (wordOfBytes b0 b1 b2 b3).toNat / 2 ^ k % 2 ^ 8 = b.toNat) :
      (wordOfBytes b0 b1 b2 b3).extractLsb' k 8 = b :=
    BitVec.eq_of_toNat_eq (by rw [BitVec.extractLsb'_toNat, Nat.shiftRight_eq_div_pow, h])
  rw [wordOfBytes_toNat] at hbyte
  rw [bytesOfWord, hbyte 0 b0 (by omega), hbyte 8 b1 (by omega), hbyte 16 b2 (by omega), hbyte 24 b3 (by omega)]

/-- Settles O11: each half and each byte of a word read as a number. -/
theorem byteOrderIsLittleEndian : Obligations.ByteOrderIsLittleEndian := by
  refine ⟨Memory.read16_toNat, fun m a v hwf ha => ⟨?_, ?_, Memory.write16_wf hwf ha v, fun b hlow hhigh => ?_⟩,
    fun b0 b1 b2 b3 => ⟨wordOfBytes_toNat b0 b1 b2 b3, bytesOfWord_wordOfBytes b0 b1 b2 b3⟩⟩
  · rw [Memory.read_write16_low, toNat_lowByte]
  · rw [Memory.read_write16_high, toNat_highByte]
  · exact Memory.read_write16_other m v (by omega)

/-! ### What `MIX` leaves alone -/

/-- `m'` reads as `m` at every address outside `[lo, hi)`. -/
def Memory.SameOutside (lo hi : Nat) (m m' : Memory) : Prop := ∀ a, a < lo ∨ hi ≤ a → m'.read a = m.read a

theorem Memory.SameOutside.refl (lo hi : Nat) (m : Memory) : m.SameOutside lo hi m := fun _ _ => rfl

theorem Memory.SameOutside.trans {lo hi : Nat} {m m' m'' : Memory} (h : m.SameOutside lo hi m')
    (h' : m'.SameOutside lo hi m'') : m.SameOutside lo hi m'' := fun a ha => (h' a ha).trans (h a ha)

/-- A frame inside a range leaves the bytes outside it alone (42_mixer.md R205). -/
theorem State.mixFrameMem_sameOutside (s : State) (g : Nat × Nat) {lo hi a : Nat} (v : Voice) (m : Memory) (hlo : lo ≤ a)
    (hhi : a + 4 ≤ hi) : m.SameOutside lo hi (s.mixFrameMem g a v m) :=
  fun _ hout => s.mixFrameMem_read_other g v m (by omega)

/-- All the frames of one voice stay inside the buffer (42_mixer.md R200, R210). -/
theorem State.mixFrames_sameOutside (s : State) (g : Nat × Nat) (n buf left : Nat) (v : Voice) (m : Memory) :
    m.SameOutside buf (buf + 4 * n) (s.mixFrames g n buf left v m).2.1 :=
  s.mixFrames_mem_induct g (m.SameOutside buf (buf + 4 * n)) buf (buf + 4 * n)
    (fun _ v m' hlo hhi h => h.trans (s.mixFrameMem_sameOutside g v m' hlo hhi)) n buf left v m (le_refl _) (le_refl _)
    (.refl _ _ m)

/-- One voice's share of a pass stays inside the buffer (42_mixer.md R210). -/
theorem State.mixVoice_sameOutside (s : State) (buf : Nat) (v : Voice) (acc : MixAcc) :
    acc.mem.SameOutside buf (buf + 4 * s.cfg.nf) (s.mixVoice buf v acc).2.mem := by
  have hframes := s.mixFrames_sameOutside (s.gains v) s.cfg.nf buf refillCap v acc.mem
  rcases s.mixVoice_cases buf v acc with ⟨-, h⟩ | ⟨-, v', m, hm, h⟩ | ⟨-, v', m, hm, h⟩ | ⟨-, v', m, hm, h⟩ <;> rw [h]
  · exact .refl _ _ _
  all_goals
    rw [hm] at hframes
    exact hframes

/-- A whole pass, its bed included, stays inside the buffer (42_mixer.md R201, R210). -/
theorem State.mixVoices_sameOutside (s : State) (buf : Nat) (vs : List Voice) (q : CallbackQueue) (flags : BitVec 8)
    (done : Nat) :
    s.mem.SameOutside buf (buf + 4 * s.cfg.nf) (s.mixVoices buf vs ⟨s.mixBed buf, q, flags, done⟩).2.mem :=
  s.mixVoices_acc buf (fun acc => s.mem.SameOutside buf (buf + 4 * s.cfg.nf) acc.mem)
    (fun v acc h => h.trans (s.mixVoice_sameOutside buf v acc)) vs ⟨s.mixBed buf, q, flags, done⟩
    fun _ hout => s.mixBed_read_other hout

/-- An effect leaves MEM as it was, or it is a pass of `MIX`, which stays inside the sink buffer (20_memory.md R72). -/
theorem Effect.mem_cases {s u : State} {i : Instr} (h : Effect s i u) :
    u.mem = s.mem ∨ i = .mix ∧ s.mem.SameOutside s.opAddr (s.opAddr + 4 * s.cfg.nf) u.mem := by
  cases h with
  | mix hargs hpass =>
    have hsame := s.mixVoices_sameOutside s.opAddr s.voices s.cbq s.errflags 0
    rw [hpass] at hsame
    exact .inr ⟨rfl, hsame⟩
  | opl _ h => exact .inl (by rw [h.same])
  | channels chans hi h => exact .inl (by rw [h.same])
  | setmusicvol h => exact .inl (by rw [h.same])
  | tbload => exact .inl (by rw [s.releaseActive_same])
  | drain => exact .inl (by rw [State.advance_frame_eq]; rfl)
  | cback => exact .inl (by rw [State.advance_frame_eq])
  | unchanged | adjusts | reset | clrerr | play | stopall | setmastervol | setrevstereo | setmusicgen | setlpf =>
    exact .inl rfl

/-- A command leaves MEM as it was, or it is `MIX` and stays inside the sink buffer, however it ends (20_memory.md R72). -/
theorem exec_mem_cases {i : Instr} {s t : State} (h : exec i s = .next t) :
    t.mem = s.mem ∨ i = .mix ∧ s.mem.SameOutside s.opAddr (s.opAddr + 4 * s.cfg.nf) t.mem := by
  rcases exec_next_cases h with ⟨e, rfl⟩ | ⟨u, r, heff, rfl⟩
  · exact .inl rfl
  · exact heff.mem_cases

/-- Settles O22: MEM is as it was, or the command is `MIX` and only the sink buffer differs. -/
theorem onlyMixWritesMemory : Obligations.OnlyMixWritesMemory := by
  intro i s t h
  rcases exec_mem_cases h with hmem | ⟨hmix, hsame⟩
  · exact ⟨fun _ => hmem, fun a _ => by rw [hmem]⟩
  · exact ⟨fun hne => absurd hmix hne, hsame⟩

end Sys2Proof.Machine

/-! ## Decoding and encoding (30_encoding.md R101, R102, R107, R111 to R113) -/

namespace Sys2Proof

/-! ### The fields of a packed word -/

/-- A word is its four bytes (30_encoding.md R101). -/
theorem packFields_bytes (w : Word) :
    packFields (w.extractLsb' 24 8) (w.extractLsb' 16 8) (w.extractLsb' 8 8) (w.extractLsb' 0 8) = w := by
  apply BitVec.eq_of_toNat_eq
  simp only [packFields, Machine.toNat_append_eq_add, BitVec.extractLsb'_toNat, Nat.shiftRight_eq_div_pow]
  omega

/-- A word is the fields of format L (30_encoding.md R102), with the opcode and the five zero bits. -/
theorem formatL_fields (w : Word) :
    w.extractLsb' 24 8 ++ w.extractLsb' 19 5 ++ BitVec.ofBool (w.getLsbD 18) ++ w.extractLsb' 9 9 ++ w.extractLsb' 0 9 =
      w := by
  apply BitVec.eq_of_toNat_eq
  simp only [Machine.toNat_append_eq_add, BitVec.extractLsb'_toNat, Nat.shiftRight_eq_div_pow, BitVec.toNat_ofBool,
    ← BitVec.testBit_toNat, Nat.toNat_testBit]
  omega

section
variable (op a b c : BitVec 8)

/-- The low bits of byte `c` (30_encoding.md R101). -/
theorem extractLsb'_packFields_c {n : Nat} (h : n ≤ 8) : (packFields op a b c).extractLsb' 0 n = c.extractLsb' 0 n :=
  BitVec.extractLsb'_append_eq_of_add_le (by omega)

/-- The low bits of byte `b` (30_encoding.md R101). -/
theorem extractLsb'_packFields_b {n : Nat} (h : n ≤ 8) : (packFields op a b c).extractLsb' 8 n = b.extractLsb' 0 n :=
  (BitVec.extractLsb'_append_eq_of_le (le_refl 8)).trans (BitVec.extractLsb'_append_eq_of_add_le (by omega))

/-- The low bits of byte `a` (30_encoding.md R101). -/
theorem extractLsb'_packFields_a {n : Nat} (h : n ≤ 8) : (packFields op a b c).extractLsb' 16 n = a.extractLsb' 0 n :=
  (BitVec.extractLsb'_append_eq_of_le (by omega)).trans
    ((BitVec.extractLsb'_append_eq_of_le (le_refl 8)).trans (BitVec.extractLsb'_append_eq_of_add_le (by omega)))

@[simp] theorem fieldImm8_packFields : fieldImm8 (packFields op a b c) = c :=
  (extractLsb'_packFields_c op a b c (le_refl 8)).trans BitVec.extractLsb'_eq_self

@[simp] theorem fieldTim_packFields : fieldTim (packFields op a b c) = b :=
  (extractLsb'_packFields_b op a b c (le_refl 8)).trans BitVec.extractLsb'_eq_self

@[simp] theorem fieldVo_packFields : fieldVo (packFields op a b c) = a.extractLsb' 0 4 :=
  extractLsb'_packFields_a op a b c (by omega)

@[simp] theorem midiCh_packFields : midiCh (packFields op a b c) = op.extractLsb' 0 4 :=
  (BitVec.extractLsb'_append_eq_of_le (by omega)).trans
    ((BitVec.extractLsb'_append_eq_of_le (by omega)).trans (BitVec.extractLsb'_append_eq_of_le (le_refl 8)))

@[simp] theorem midiD1_packFields : midiD1 (packFields op a b c) = a.extractLsb' 0 7 :=
  extractLsb'_packFields_a op a b c (by omega)

@[simp] theorem midiD2_packFields : midiD2 (packFields op a b c) = b.extractLsb' 0 7 :=
  extractLsb'_packFields_b op a b c (by omega)

/-- `imm1` of format I1 (30_encoding.md R102). -/
theorem imm1_packFields : (packFields op a b c).getLsbD 0 = c.getLsbD 0 := by
  unfold packFields
  rw [BitVec.getLsbD_append, if_pos (by omega)]

end

/-- A 4-bit field in the low half of its byte reads as itself (30_encoding.md R102). -/
@[simp] theorem extractLsb'_nibble (hi x : BitVec 4) : (hi ++ x : BitVec 8).extractLsb' 0 4 = x :=
  BitVec.extractLsb'_append_eq_right

/-- A 7-bit field in its byte reads as itself (30_encoding.md R102). -/
@[simp] theorem extractLsb'_septet (x : BitVec 7) : (0#1 ++ x : BitVec 8).extractLsb' 0 7 = x :=
  BitVec.extractLsb'_append_eq_right

/-- A 1-bit field in byte `c` reads as itself (30_encoding.md R102). -/
theorem imm1_packFields_bit (op a b : BitVec 8) (x : Bool) : (packFields op a b (0#7 ++ BitVec.ofBool x)).getLsbD 0 = x := by
  rw [imm1_packFields]
  cases x <;> rfl

section
variable (hi : BitVec 13) (en : Bool) (beta alpha : BitVec 9)

/-- `en` of format L (30_encoding.md R102). -/
theorem formatL_en : (hi ++ BitVec.ofBool en ++ beta ++ alpha : Word).getLsbD 18 = en := by
  simp only [BitVec.getLsbD_append, BitVec.getLsbD_ofBool]
  rfl

/-- `beta` of format L (30_encoding.md R102). -/
theorem formatL_beta : (hi ++ BitVec.ofBool en ++ beta ++ alpha : Word).extractLsb' 9 9 = beta :=
  (BitVec.extractLsb'_append_eq_of_le (le_refl 9)).trans BitVec.extractLsb'_append_eq_right

/-- `alpha` of format L (30_encoding.md R102). -/
theorem formatL_alpha : (hi ++ BitVec.ofBool en ++ beta ++ alpha : Word).extractLsb' 0 9 = alpha :=
  BitVec.extractLsb'_append_eq_right

end

/-! ### No word matches two rows -/

theorem OpRow.matches_iff (r : OpRow) (w : Word) : r.matches w = true ↔ w &&& r.mask = r.value := beq_iff_eq

theorem OpRow.matches_eq_false_iff (r : OpRow) (w : Word) : r.matches w = false ↔ w &&& r.mask ≠ r.value :=
  beq_eq_false_iff_ne

/-- The matches of two rows differ at a bit that both masks keep (30_encoding.md R111). -/
def OpRow.Differ (r r' : OpRow) : Prop := r.value &&& r'.mask ≠ r'.value &&& r.mask

theorem OpRow.Differ.symm {r r' : OpRow} (h : r.Differ r') : r'.Differ r := Ne.symm h

/-- Rows that differ share no word: under both masks it would have both matches. -/
theorem OpRow.Differ.disjoint {r r' : OpRow} (h : r.Differ r') (w : Word) :
    ¬(w &&& r.mask = r.value ∧ w &&& r'.mask = r'.value) := by
  rintro ⟨hr, hr'⟩
  apply h
  calc r.value &&& r'.mask = w &&& r.mask &&& r'.mask := by rw [hr]
    _ = w &&& r'.mask &&& r.mask := by ac_rfl
    _ = r'.value &&& r.mask := by rw [hr']

/-- Any two rows of 30_encoding.md R111 differ: opcodes differ, and in the MIDI group the `kind` nibbles. -/
theorem opcodeTable_differ : opcodeTable.Pairwise OpRow.Differ := by unfold OpRow.Differ; decide

/-- A word has at most one row (30_encoding.md R111). -/
theorem eq_of_matches {r r' : OpRow} {w : Word} (hr : r ∈ opcodeTable) (hr' : r' ∈ opcodeTable)
    (hm : r.matches w = true) (hm' : r'.matches w = true) : r = r' := by
  by_contra hne
  have hsymm : Std.Symm OpRow.Differ := ⟨fun _ _ => OpRow.Differ.symm⟩
  have hdiffer : r.Differ r' := opcodeTable_differ.forall hr hr' hne
  exact hdiffer.disjoint w ⟨(r.matches_iff w).1 hm, (r'.matches_iff w).1 hm'⟩

/-- A word decodes to what its row builds, wherever the row stands in the table (30_encoding.md R112). -/
theorem decode_eq_build {r : OpRow} {w : Word} (hr : r ∈ opcodeTable) (hm : r.matches w = true) :
    decode w = .ok (r.build w) := by
  obtain ⟨i, hi⟩ := decode_isOk hr hm
  obtain ⟨r', hr', hm', rfl⟩ := decode_ok hi
  rw [hi, eq_of_matches hr hr' hm hm']

/-- Settles O1: the listing is the table itself, and its rows differ pairwise. -/
theorem opcodeRowsAreListedAndDisjoint : Obligations.OpcodeRowsAreListedAndDisjoint :=
  ⟨rfl, opcodeTable_differ.imp fun h => h.disjoint⟩

/-! ### What a row builds encodes back to the word -/

/-- What the row builds from a word encodes to the row's match and the word's bits outside the mask: the inline fields are
exactly those bits (30_encoding.md R102, R111). -/
def OpRow.EncodesBack (r : OpRow) : Prop := ∀ w, encode (r.build w) = r.value ||| (w &&& ~~~r.mask)

/-- A row that encodes back gives a word it matches back. -/
theorem OpRow.EncodesBack.encode_build {r : OpRow} (h : r.EncodesBack) {w : Word} (hm : r.matches w = true) :
    encode (r.build w) = w := by
  rw [h w, ← (r.matches_iff w).1 hm, ← BitVec.and_or_distrib_left, BitVec.or_not_self, BitVec.and_allOnes]

/-- A mask is inverted byte by byte (30_encoding.md R101). -/
theorem not_packFields (op a b c : BitVec 8) : ~~~packFields op a b c = packFields (~~~op) (~~~a) (~~~b) (~~~c) := by
  unfold packFields
  rw [BitVec.not_append, BitVec.not_append, BitVec.not_append]

/-- Bits are joined byte by byte (30_encoding.md R101). -/
theorem packFields_or (op a b c op' a' b' c' : BitVec 8) :
    packFields op a b c ||| packFields op' a' b' c' = packFields (op ||| op') (a ||| a') (b ||| b') (c ||| c') := by
  unfold packFields
  rw [BitVec.or_append, BitVec.or_append, BitVec.or_append]

/-- A row given byte by byte encodes back when each byte does. -/
theorem OpRow.EncodesBack.of_bytes {n : String} {f : Word → Instr} {v3 v2 v1 v0 m3 m2 m1 m0 : BitVec 8}
    (h : ∀ op a b c, encode (f (packFields op a b c)) =
      packFields (v3 ||| (op &&& ~~~m3)) (v2 ||| (a &&& ~~~m2)) (v1 ||| (b &&& ~~~m1)) (v0 ||| (c &&& ~~~m0))) :
    EncodesBack ⟨n, packFields v3 v2 v1 v0, packFields m3 m2 m1 m0, f⟩ := by
  intro w
  rw [← packFields_bytes w, not_packFields, packFields_and, packFields_or]
  exact h _ _ _ _

/-- A byte that is all mask keeps its match. -/
theorem byte_of_full_mask (v x : BitVec 8) : v ||| (x &&& ~~~0xFF#8) = v := by simp

/-- A byte that is all field is that field. -/
theorem byte_of_empty_mask (x : BitVec 8) : 0#8 ||| (x &&& ~~~0#8) = x := by
  rw [BitVec.zero_or]
  exact BitVec.and_allOnes

/-- A byte with a 4-bit field in its low half (30_encoding.md R102, R107). -/
theorem byte_of_nibble_mask (hi : BitVec 4) (x : BitVec 8) :
    hi ++ 0#4 ||| (x &&& ~~~0xF0#8) = hi ++ x.extractLsb' 0 4 := by revert hi x; decide

/-- A byte with a 7-bit field (30_encoding.md R102, R107). -/
theorem byte_of_septet_mask (x : BitVec 8) : 0#8 ||| (x &&& ~~~0x80#8) = 0#1 ++ x.extractLsb' 0 7 := by
  revert x; decide

/-- A byte with a 1-bit field (30_encoding.md R102). -/
theorem byte_of_bit_mask (x : BitVec 8) : 0#8 ||| (x &&& ~~~0xFE#8) = 0#7 ++ BitVec.ofBool (x.getLsbD 0) := by
  revert x; decide

namespace OpRow.EncodesBack

variable {n : String} (op : BitVec 8)

/-- Format Z: a row without fields (30_encoding.md R103). -/
theorem formatZ {v : Word} {i : Instr} (h : encode i = v) : EncodesBack ⟨n, v, 0xFFFFFFFF, fun _ => i⟩ := by
  intro w
  have hmask : ~~~(0xFFFFFFFF : Word) = 0#32 := rfl
  rw [h, hmask, BitVec.and_zero, BitVec.or_zero]

/-- Format I8 (30_encoding.md R102, R104). -/
theorem formatI8 {f : BitVec 8 → Instr} (h : ∀ imm8, encode (f imm8) = packFields op 0 0 imm8) :
    EncodesBack ⟨n, packFields op 0 0 0, packFields 0xFF 0xFF 0xFF 0x00, fun w => f (fieldImm8 w)⟩ :=
  of_bytes fun _ _ _ _ => by
    simp only [h, fieldImm8_packFields, BitVec.ofNat_eq_ofNat, byte_of_full_mask, byte_of_empty_mask]

/-- Format I1 (30_encoding.md R102, R104). -/
theorem formatI1 {f : Bool → Instr} (h : ∀ imm1, encode (f imm1) = packFields op 0 0 (0#7 ++ BitVec.ofBool imm1)) :
    EncodesBack ⟨n, packFields op 0 0 0, packFields 0xFF 0xFF 0xFF 0xFE, fun w => f (w.getLsbD 0)⟩ :=
  of_bytes fun _ _ _ _ => by
    simp only [h, imm1_packFields, BitVec.ofNat_eq_ofNat, byte_of_full_mask, byte_of_bit_mask]

/-- Format P (30_encoding.md R102, R105). -/
theorem formatP {f : BitVec 4 → Instr} (h : ∀ fmt, encode (f fmt) = packFields op 0 0 (0#4 ++ fmt)) :
    EncodesBack ⟨n, packFields op 0 0 (0#4 ++ 0#4), packFields 0xFF 0xFF 0xFF 0xF0, fun w => f (w.extractLsb' 0 4)⟩ :=
  of_bytes fun _ _ _ _ => by
    simp only [h, extractLsb'_packFields_c, Nat.reduceLeDiff, BitVec.ofNat_eq_ofNat, byte_of_full_mask, byte_of_nibble_mask]

/-- Format L (30_encoding.md R102, R106). -/
theorem formatL : EncodesBack ⟨n, 0x1C000000, 0xFFF80000,
    fun w => .setlpf (w.getLsbD 18) (w.extractLsb' 9 9) (w.extractLsb' 0 9)⟩ := by
  intro w
  calc encode (.setlpf (w.getLsbD 18) (w.extractLsb' 9 9) (w.extractLsb' 0 9))
      = (0x1C#8 ++ 0#5 ++ 0#1 ++ 0#9 ++ 0#9) |||
          ((w.extractLsb' 24 8 ++ w.extractLsb' 19 5 ++ BitVec.ofBool (w.getLsbD 18) ++ w.extractLsb' 9 9 ++
            w.extractLsb' 0 9) &&& ~~~(BitVec.allOnes 8 ++ BitVec.allOnes 5 ++ 0#1 ++ 0#9 ++ 0#9)) := by
        simp only [encode, BitVec.not_append, BitVec.and_append, BitVec.or_append, BitVec.not_allOnes, BitVec.not_zero,
          BitVec.and_allOnes, BitVec.and_zero, BitVec.or_zero, BitVec.zero_or]
    _ = 0x1C000000 ||| (w &&& ~~~0xFFF80000) := by rw [formatL_fields]; rfl

/-- Formats V and Q with a timbre index (30_encoding.md R102, R108, R109). -/
theorem formatV_tim {f : BitVec 4 → BitVec 8 → Instr}
    (h : ∀ vo tim, encode (f vo tim) = packFields op (0#4 ++ vo) tim 0) :
    EncodesBack ⟨n, packFields op (0#4 ++ 0#4) 0 0, packFields 0xFF 0xF0 0x00 0xFF,
      fun w => f (fieldVo w) (fieldTim w)⟩ :=
  of_bytes fun _ _ _ _ => by
    simp only [h, fieldVo_packFields, fieldTim_packFields, BitVec.ofNat_eq_ofNat, byte_of_full_mask, byte_of_empty_mask,
      byte_of_nibble_mask]

/-- Format V without a timbre index (30_encoding.md R102, R108). -/
theorem formatV {f : BitVec 4 → Instr} (h : ∀ vo, encode (f vo) = packFields op (0#4 ++ vo) 0 0) :
    EncodesBack ⟨n, packFields op (0#4 ++ 0#4) 0 0, packFields 0xFF 0xF0 0xFF 0xFF, fun w => f (fieldVo w)⟩ :=
  of_bytes fun _ _ _ _ => by
    simp only [h, fieldVo_packFields, BitVec.ofNat_eq_ofNat, byte_of_full_mask, byte_of_nibble_mask]

/-- Format Q with a key (30_encoding.md R102, R109). -/
theorem formatQ_key {f : BitVec 4 → BitVec 7 → Instr}
    (h : ∀ qch key, encode (f qch key) = packFields op (0#4 ++ qch) (0#1 ++ key) 0) :
    EncodesBack ⟨n, packFields op (0#4 ++ 0#4) 0 0, packFields 0xFF 0xF0 0x80 0xFF,
      fun w => f (fieldVo w) (w.extractLsb' 8 7)⟩ :=
  of_bytes fun _ _ _ _ => by
    simp only [h, fieldVo_packFields, extractLsb'_packFields_b, Nat.reduceLeDiff, BitVec.ofNat_eq_ofNat, byte_of_full_mask,
      byte_of_nibble_mask, byte_of_septet_mask]

/-- Format M with two data bytes (30_encoding.md R102, R107). -/
theorem formatM_two (kind : BitVec 4) {f : BitVec 4 → BitVec 7 → BitVec 7 → Instr}
    (h : ∀ ch d1 d2, encode (f ch d1 d2) = packMidi kind ch d1 d2) :
    EncodesBack ⟨n, packFields (kind ++ 0#4) 0 0 0, packFields 0xF0 0x80 0x80 0xFF,
      fun w => f (midiCh w) (midiD1 w) (midiD2 w)⟩ :=
  of_bytes fun _ _ _ _ => by
    simp only [h, packMidi, midiCh_packFields, midiD1_packFields, midiD2_packFields, BitVec.ofNat_eq_ofNat,
      byte_of_full_mask, byte_of_nibble_mask, byte_of_septet_mask]

/-- Format M with one data byte (30_encoding.md R102, R107). -/
theorem formatM_one (kind : BitVec 4) {f : BitVec 4 → BitVec 7 → Instr}
    (h : ∀ ch d1, encode (f ch d1) = packMidi kind ch d1 0) :
    EncodesBack ⟨n, packFields (kind ++ 0#4) 0 0 0, packFields 0xF0 0x80 0xFF 0xFF, fun w => f (midiCh w) (midiD1 w)⟩ :=
  of_bytes fun _ _ _ _ => by
    have hzero : 0#1 ++ 0#7 = 0#8 := rfl
    simp only [h, packMidi, midiCh_packFields, midiD1_packFields, BitVec.ofNat_eq_ofNat, hzero,
      byte_of_full_mask, byte_of_nibble_mask, byte_of_septet_mask]

end OpRow.EncodesBack

open OpRow.EncodesBack in
/-- Every row of the table encodes back, each by its format (30_encoding.md R102, R111). -/
theorem encodesBack_of_mem : ∀ r ∈ opcodeTable, r.EncodesBack := by
  simp only [opcodeTable, List.forall_mem_cons]
  exact ⟨formatZ rfl, formatZ rfl, formatI8 0x02 fun _ => rfl, formatZ rfl, formatP 0x11 fun _ => rfl, formatZ rfl,
    formatZ rfl, formatZ rfl, formatZ rfl, formatZ rfl, formatZ rfl, formatZ rfl, formatZ rfl, formatI8 0x1A fun _ => rfl,
    formatI1 0x1B fun _ => rfl, formatL, formatI1 0x1D fun _ => rfl, formatZ rfl, formatZ rfl, formatZ rfl, formatZ rfl,
    formatZ rfl, formatZ rfl, formatI8 0x33 fun _ => rfl, formatQ_key 0x34 fun _ _ => rfl, formatV_tim 0x35 fun _ _ => rfl,
    formatV_tim 0x36 fun _ _ => rfl, formatV 0x37 fun _ => rfl, formatV 0x38 fun _ => rfl,
    formatM_two 0x8 fun _ _ _ => rfl, formatM_two 0x9 fun _ _ _ => rfl, formatM_two 0xA fun _ _ _ => rfl,
    formatM_two 0xB fun _ _ _ => rfl, formatM_one 0xC fun _ _ => rfl, formatM_one 0xD fun _ _ => rfl,
    formatM_two 0xE fun _ _ _ => rfl, List.forall_mem_nil _⟩

/-- Settles O3: the word's row encodes back. -/
theorem encodeOfDecode : Obligations.EncodeOfDecode := by
  intro w i h
  obtain ⟨r, hr, hm, rfl⟩ := decode_ok h
  exact (encodesBack_of_mem r hr).encode_build hm

/-! ### Every command is what its row builds from its word -/

/-- Every command is built by a row of the table from the command's own word (30_encoding.md R102, R111). -/
theorem exists_row_builds (i : Instr) : ∃ r ∈ opcodeTable, r.build (encode i) = i := by
  cases i with
  | nop => exact ⟨_, List.mem_of_getElem? (i := 0) rfl, rfl⟩
  | reset => exact ⟨_, List.mem_of_getElem? (i := 1) rfl, rfl⟩
  | clrerr imm8 => exact ⟨_, List.mem_of_getElem? (i := 2) rfl, by simp [encode]⟩
  | alloc => exact ⟨_, List.mem_of_getElem? (i := 3) rfl, rfl⟩
  | play fmt => exact ⟨_, List.mem_of_getElem? (i := 4) rfl, by simp [encode, extractLsb'_packFields_c]⟩
  | stop => exact ⟨_, List.mem_of_getElem? (i := 5) rfl, rfl⟩
  | stopall => exact ⟨_, List.mem_of_getElem? (i := 6) rfl, rfl⟩
  | setpan => exact ⟨_, List.mem_of_getElem? (i := 7) rfl, rfl⟩
  | setpitch => exact ⟨_, List.mem_of_getElem? (i := 8) rfl, rfl⟩
  | setfreq => exact ⟨_, List.mem_of_getElem? (i := 9) rfl, rfl⟩
  | isplaying => exact ⟨_, List.mem_of_getElem? (i := 10) rfl, rfl⟩
  | countplaying => exact ⟨_, List.mem_of_getElem? (i := 11) rfl, rfl⟩
  | hasfree => exact ⟨_, List.mem_of_getElem? (i := 12) rfl, rfl⟩
  | setmastervol imm8 => exact ⟨_, List.mem_of_getElem? (i := 13) rfl, by simp [encode]⟩
  | setrevstereo imm1 =>
    exact ⟨_, List.mem_of_getElem? (i := 14) rfl, congrArg Instr.setrevstereo (imm1_packFields_bit _ _ _ imm1)⟩
  | setlpf en beta alpha =>
    refine ⟨_, List.mem_of_getElem? (i := 15) rfl, ?_⟩
    exact congr (congrArg₂ Instr.setlpf (formatL_en _ en beta alpha) (formatL_beta _ en beta alpha))
      (formatL_alpha _ en beta alpha)
  | setmusicgen imm1 =>
    exact ⟨_, List.mem_of_getElem? (i := 16) rfl, congrArg Instr.setmusicgen (imm1_packFields_bit _ _ _ imm1)⟩
  | mix => exact ⟨_, List.mem_of_getElem? (i := 17) rfl, rfl⟩
  | drain => exact ⟨_, List.mem_of_getElem? (i := 18) rfl, rfl⟩
  | cback => exact ⟨_, List.mem_of_getElem? (i := 19) rfl, rfl⟩
  | tbload => exact ⟨_, List.mem_of_getElem? (i := 20) rfl, rfl⟩
  | oplreset => exact ⟨_, List.mem_of_getElem? (i := 21) rfl, rfl⟩
  | oplalloff => exact ⟨_, List.mem_of_getElem? (i := 22) rfl, rfl⟩
  | setmusicvol imm8 => exact ⟨_, List.mem_of_getElem? (i := 23) rfl, by simp [encode]⟩
  | ovfind qch key => exact ⟨_, List.mem_of_getElem? (i := 24) rfl, by simp [encode, extractLsb'_packFields_b]⟩
  | ovalloc qch tim => exact ⟨_, List.mem_of_getElem? (i := 25) rfl, by simp [encode]⟩
  | ovtimbre vo tim => exact ⟨_, List.mem_of_getElem? (i := 26) rfl, by simp [encode]⟩
  | ovvolume vo => exact ⟨_, List.mem_of_getElem? (i := 27) rfl, by simp [encode]⟩
  | ovpitch vo => exact ⟨_, List.mem_of_getElem? (i := 28) rfl, by simp [encode]⟩
  | noteoff ch d1 d2 => exact ⟨_, List.mem_of_getElem? (i := 29) rfl, by simp [encode, packMidi]⟩
  | noteon ch d1 d2 => exact ⟨_, List.mem_of_getElem? (i := 30) rfl, by simp [encode, packMidi]⟩
  | keypressure ch d1 d2 => exact ⟨_, List.mem_of_getElem? (i := 31) rfl, by simp [encode, packMidi]⟩
  | controller ch d1 d2 => exact ⟨_, List.mem_of_getElem? (i := 32) rfl, by simp [encode, packMidi]⟩
  | progchange ch d1 => exact ⟨_, List.mem_of_getElem? (i := 33) rfl, by simp [encode, packMidi]⟩
  | chanpressure ch d1 => exact ⟨_, List.mem_of_getElem? (i := 34) rfl, by simp [encode, packMidi]⟩
  | pitchbend ch d1 d2 => exact ⟨_, List.mem_of_getElem? (i := 35) rfl, by simp [encode, packMidi]⟩

/-- A row's match has no bit outside its mask (30_encoding.md R111). -/
theorem value_and_mask_of_mem : ∀ r ∈ opcodeTable, r.value &&& r.mask = r.value := by decide

/-- The row that builds the command matches its word. -/
theorem OpRow.EncodesBack.matches_encode {r : OpRow} {i : Instr} (h : r.EncodesBack)
    (hvalue : r.value &&& r.mask = r.value) (hi : r.build (encode i) = i) : r.matches (encode i) = true := by
  have hword : encode i = r.value ||| (encode i &&& ~~~r.mask) := by
    rw [← h, hi]
  have hout : encode i &&& ~~~r.mask &&& r.mask = 0#32 := by
    rw [BitVec.and_assoc, BitVec.and_comm (~~~r.mask), BitVec.and_not_self]
    exact BitVec.and_zero
  rw [r.matches_iff, hword, BitVec.and_or_distrib_right, hvalue, hout, BitVec.or_zero]

/-- Settles O2: the row that builds the command from its word matches that word, and no other row does. -/
theorem decodeOfEncode : Obligations.DecodeOfEncode := by
  intro i
  obtain ⟨r, hr, hi⟩ := exists_row_builds i
  have hm := (encodesBack_of_mem r hr).matches_encode (value_and_mask_of_mem r hr) hi
  rw [decode_eq_build hr hm, hi]

/-- Settles O6: each word that decodes is written out as the encoding of its command. -/
theorem sampleWordsDecode : Obligations.SampleWordsDecode :=
  ⟨decodeOfEncode .nop, decodeOfEncode (.clrerr 0xA5), decodeOfEncode (.play 0xB), decodeOfEncode (.setrevstereo true),
    decodeOfEncode (.setlpf true 128 128), decodeOfEncode (.ovfind 15 127), decodeOfEncode (.ovtimbre 2 5),
    decodeOfEncode (.ovpitch 8), decodeOfEncode (.noteon 1 60 127), decodeOfEncode (.progchange 5 7),
    decodeOfEncode (.pitchbend 2 1 64), decode_isError (by decide), decode_isError (by decide)⟩

/-! ### Reserved words -/

/-- The reserved opcodes of 30_encoding.md R113, as `op = W[31:24]`. -/
def ReservedOp (op : Nat) : Prop :=
  (0x03 ≤ op ∧ op ≤ 0x0F) ∨ (0x1E ≤ op ∧ op ≤ 0x1F) ∨ (0x23 ≤ op ∧ op ≤ 0x2F) ∨ (0x39 ≤ op ∧ op ≤ 0x7F) ∨
    (0xF0 ≤ op ∧ op ≤ 0xFF)

theorem opcodeByte_toNat (w : Word) : (opcodeByte w).toNat = w.toNat / 2 ^ 24 := by
  simp only [opcodeByte, BitVec.extractLsb'_toNat, Nat.shiftRight_eq_div_pow]
  omega

/-- No row has a reserved opcode (30_encoding.md R113). -/
theorem opcodeByte_ne_of_reserved (op : BitVec 8) (h : ReservedOp op.toNat) :
    ∀ r ∈ opcodeTable, op &&& opcodeByte r.mask ≠ opcodeByte r.value := by
  revert op
  unfold ReservedOp
  decide

/-- A word matches no row exactly when it does not decode (30_encoding.md R113). -/
theorem no_row_iff_error (w : Word) : (∀ r ∈ opcodeTable, w &&& r.mask ≠ r.value) ↔ ∃ e, decode w = .error e := by
  constructor
  · intro h
    exact decode_isError fun r hr => (r.matches_eq_false_iff w).2 (h r hr)
  · rintro ⟨e, he⟩ r hr
    exact (r.matches_eq_false_iff w).1 (decode_error he r hr)

/-- A row that matches a word has its opcode byte, so a reserved opcode has no row (30_encoding.md R101, R113). -/
theorem no_row_of_reserved (w : Word) (h : ReservedOp (w.toNat / 2 ^ 24)) :
    ∀ r ∈ opcodeTable, w &&& r.mask ≠ r.value := by
  intro r hr hm
  rw [← opcodeByte_toNat] at h
  apply opcodeByte_ne_of_reserved (opcodeByte w) h r hr
  rw [← hm]
  exact BitVec.extractLsb'_and.symm

end Sys2Proof

namespace Sys2Proof.Machine

/-- A word that does not decode fails with `E_BADCMD` (30_encoding.md R113). -/
theorem State.runCommand_error {s : State} {w : Word} {e : DecodeError} (h : decode w = .error e) :
    s.runCommand w = .next { s.fail .badCmd with busy := false } := by
  unfold State.runCommand
  rw [h]
  rfl

/-- A word that decodes runs its command with `BUSY = 1` (30_encoding.md R112). -/
theorem State.runCommand_ok {s : State} {w : Word} {i : Instr} (h : decode w = .ok i) :
    s.runCommand w = clearBusy (exec i { s with busy := true }) := by
  unfold State.runCommand
  rw [h]

/-- Every command answers a next state (60_exceptions.md R370). -/
theorem exec_next (i : Instr) (s : State) : ∃ t, exec i s = .next t := by
  have hends := exec_ends i s
  cases hexec : exec i s with
  | next t => exact ⟨t, rfl⟩
  | fault r => rw [hexec] at hends; cases hends
  | refused r => rw [hexec] at hends; cases hends

/-- Settles O4: which words have no row, and that the step on one is the failure `E_BADCMD`. -/
theorem reservedWordFails : Obligations.ReservedWordFails := by
  refine ⟨no_row_iff_error, no_row_of_reserved, ?_⟩
  intro s w rest hwf hbusy hq hnone
  obtain ⟨e, he⟩ := (no_row_iff_error w).1 hnone
  rw [step_cmd hwf hbusy hq, State.runCommand_error he, ← hbusy]
  rfl

/-- Settles O5: the step is the run of the decoded command, which answers a next state. -/
theorem stepRunsDecodedCommand : Obligations.StepRunsDecodedCommand := by
  intro s w rest i hwf hbusy hq hi
  obtain ⟨t, ht⟩ := exec_next i { s with hostq := rest, busy := true }
  refine ⟨t, ht, ?_⟩
  rw [step_cmd hwf hbusy hq, State.runCommand_ok hi, ht, clearBusy_next]

end Sys2Proof.Machine

/-! ## The voice pool (40_voice_pool.md) -/

namespace Sys2Proof.Machine

/-! ### Settings (40_voice_pool.md R149 to R152) -/

/-- Coefficients that sum to at most 256 are accepted (40_voice_pool.md R149). -/
theorem execSetlpf_of_le {beta alpha : BitVec 9} (h : alpha.toNat + beta.toNat ≤ 256) (en : Bool) (s : State) :
    execSetlpf en beta alpha s = .next (State.complete { s with alpha := alpha, beta := beta, lpfEn := en } 0) :=
  if_neg (by omega)

/-- Coefficients that sum to more than 256 are rejected (40_voice_pool.md R149); a single one above 256 is such a sum. -/
theorem execSetlpf_of_gt {beta alpha : BitVec 9} (h : 256 < alpha.toNat + beta.toNat) (en : Bool) (s : State) :
    execSetlpf en beta alpha s = .next (s.fail .badArg) :=
  if_pos (by omega)

/-- Settles O26: three commands store their field as it is, and `SETLPF` asks for the sum of its coefficients. -/
theorem settingsResult : Obligations.SettingsResult := by
  intro s
  exact ⟨fun _ => rfl, fun _ => rfl, fun _ => rfl,
    fun en _ _ => ⟨fun h => execSetlpf_of_le h en s, fun h => execSetlpf_of_gt h en s⟩⟩

/-! ### The arbiter (40_voice_pool.md R133, R135, R148) -/

/-- The scan answers the slot of R133 or finds the pool full (40_voice_pool.md R133). -/
theorem State.allocate_cases (s : State) (prio : Int) :
    (∃ i v, allocate s.voices prio = some i ∧ s.ArbiterGives prio i v) ∨
    (allocate s.voices prio = none ∧ s.PoolFull prio) := by
  cases h : allocate s.voices prio with
  | some i =>
    obtain ⟨v, hv⟩ := allocate_eq_some h
    exact .inl ⟨i, v, rfl, hv⟩
  | none => exact .inr ⟨rfl, allocate_eq_none h⟩

/-- Of two slots that the arbiter may give, neither comes before the other (40_voice_pool.md R133). -/
theorem State.ArbiterGives.le {s : State} {prio : Int} {i j : Nat} {v w : Voice} (hi : s.ArbiterGives prio i v)
    (hj : s.ArbiterGives prio j w) : i ≤ j := by
  obtain ⟨hv, hi⟩ := hi
  obtain ⟨hw, hj⟩ := hj
  have hvmem := List.mem_of_getElem? hv
  have hwmem := List.mem_of_getElem? hw
  by_contra hlt
  replace hlt : j < i := by omega
  rcases hi with ⟨hidle, hfirst⟩ | ⟨hall, -, -, hfirst⟩
  · have hactive : w.active = true := hfirst j w hlt hw
    rcases hj with ⟨hidle', -⟩ | ⟨hall, -⟩
    · exact absurd (hactive.symm.trans hidle') (by decide)
    · exact absurd ((hall v hvmem).symm.trans hidle) (by decide)
  · have hhigher : v.prio.toInt < w.prio.toInt := hfirst j w hlt hw
    rcases hj with ⟨hidle, -⟩ | ⟨-, -, hlowest, -⟩
    · exact absurd ((hall w hwmem).symm.trans hidle) (by decide)
    · have := hlowest v hvmem
      omega

/-- With a slot to give, the pool is not full (40_voice_pool.md R133). -/
theorem State.ArbiterGives.not_poolFull {s : State} {prio : Int} {i : Nat} {v : Voice} (h : s.ArbiterGives prio i v) :
    ¬s.PoolFull prio := by
  obtain ⟨hv, h⟩ := h
  intro hfull
  obtain ⟨hactive, hprio⟩ := hfull v (List.mem_of_getElem? hv)
  rcases h with ⟨hidle, -⟩ | ⟨-, hlower, -⟩
  · exact absurd (hactive.symm.trans hidle) (by decide)
  · omega

/-- The scan answers the slot of R133: there is only one (40_voice_pool.md R133). -/
theorem State.ArbiterGives.allocate_eq {s : State} {prio : Int} {i : Nat} {v : Voice} (h : s.ArbiterGives prio i v) :
    allocate s.voices prio = some i := by
  rcases s.allocate_cases prio with ⟨j, w, hj, hgives⟩ | ⟨-, hfull⟩
  · rw [hj, Nat.le_antisymm (hgives.le h) (h.le hgives)]
  · exact absurd hfull h.not_poolFull

/-- The scan of a full pool answers no slot (40_voice_pool.md R133). -/
theorem State.PoolFull.allocate_eq {s : State} {prio : Int} (h : s.PoolFull prio) : allocate s.voices prio = none := by
  rcases s.allocate_cases prio with ⟨i, v, -, hgives⟩ | ⟨hnone, -⟩
  · exact absurd h hgives.not_poolFull
  · exact hnone

/-- When the scan answers a slot, `ALLOC` answers its number and `HASFREE` 1 (40_voice_pool.md R135, R148). -/
theorem exec_allocAndHasfree_of_some {s : State} {i : Nat} (h : allocate s.voices s.opPrio = some i) :
    exec .alloc s = .next (s.complete (BitVec.ofNat 32 i)) ∧ exec .hasfree s = .next (s.complete 1) := by
  simp only [exec, execAlloc, execHasfree, h, Option.isSome_some, if_true, and_self]

/-- When the scan answers no slot, `ALLOC` answers 0xFFFFFFFF and `HASFREE` 0 (40_voice_pool.md R135, R148). -/
theorem exec_allocAndHasfree_of_none {s : State} (h : allocate s.voices s.opPrio = none) :
    exec .alloc s = .next (s.complete 0xFFFFFFFF) ∧ exec .hasfree s = .next (s.complete 0) := by
  simp only [exec, execAlloc, execHasfree, h, Option.isSome_none, Bool.false_eq_true, if_false, and_self]

/-- Settles O27: the slot of R133 is unique, so the scan finds it; and the scan finds a slot or the pool is full. -/
theorem allocAndHasfreeResult : Obligations.AllocAndHasfreeResult := by
  intro s
  refine ⟨fun i v h => exec_allocAndHasfree_of_some h.allocate_eq,
    fun h => exec_allocAndHasfree_of_none h.allocate_eq, ?_⟩
  rcases s.allocate_cases s.opPrio with ⟨i, v, -, h⟩ | ⟨-, h⟩
  · exact .inl ⟨i, v, h⟩
  · exact .inr h

/-! ### Volumes and the step (40_voice_pool.md R137, R138) -/

/-- One channel of `setvol` as a number (40_voice_pool.md R137). -/
theorem volByte_toNat (n : Int) : ((volByte n).toNat : Int) = clamp (n * 4) 0 255 := by
  have hbounds := clamp_bounds (v := n * 4) (show (0 : Int) ≤ 255 by omega)
  rw [volByte, BitVec.toNat_ofInt]
  omega

/-- Both channels of `setvol` as numbers: the generic volume stands in when neither side is positive (40_voice_pool.md
R137). -/
theorem setvol_toNat (vol left right : Int) :
    ((setvol vol left right).1.toNat : Int) = clamp ((if left ≤ 0 ∧ right ≤ 0 then vol else left) * 4) 0 255 ∧
    ((setvol vol left right).2.toNat : Int) = clamp ((if left ≤ 0 ∧ right ≤ 0 then vol else right) * 4) 0 255 := by
  unfold setvol
  split <;> exact ⟨volByte_toNat _, volByte_toNat _⟩

/-- The rate that `calcstep` divides: adjusted by the pitch, truncated toward zero, and clamped (40_voice_pool.md R138). -/
def adjustedRate (rate : Nat) (pitch : Int) : Int := clamp (rate + ((rate : Int) * pitch).tdiv 2048) 1000 48000

/-- The step as an unbounded number: the whole part of the adjusted rate over the output rate, plus a half (40_voice_pool.md
R138). -/
def roundedStep (c : Config) (rate : Nat) (pitch : Int) : Int :=
  (adjustedRate rate pitch * 2 ^ 16 + (c.fOut / 2 : Nat)) / (c.fOut : Int)

theorem calcstep_eq (c : Config) (rate : Nat) (pitch : Int) :
    calcstep c rate pitch = BitVec.ofInt 32 (roundedStep c rate pitch) := rfl

/-- The step is in its range when the output rate is: the adjusted rate is in 1000..48000 (40_voice_pool.md R138). -/
theorem roundedStep_bounds {c : Config} (hlo : 1000 ≤ c.fOut) (hhi : c.fOut ≤ 1000000) (rate : Nat) (pitch : Int) :
    66 ≤ roundedStep c rate pitch ∧ roundedStep c rate pitch ≤ 3145728 := by
  have hadj : 1000 ≤ adjustedRate rate pitch ∧ adjustedRate rate pitch ≤ 48000 := clamp_bounds (by omega)
  have hpos : (0 : Int) < c.fOut := by omega
  constructor
  · rw [roundedStep, Int.le_ediv_iff_mul_le hpos]
    omega
  · rw [roundedStep, ← Int.lt_add_one_iff, Int.ediv_lt_iff_lt_mul hpos]
    omega

/-- The step fits its register when the output rate is in range (40_voice_pool.md R138). -/
theorem calcstep_toNat {c : Config} (hlo : 1000 ≤ c.fOut) (hhi : c.fOut ≤ 1000000) (rate : Nat) (pitch : Int) :
    ((calcstep c rate pitch).toNat : Int) = roundedStep c rate pitch := by
  have hbounds := roundedStep_bounds hlo hhi rate pitch
  rw [calcstep_eq, BitVec.toNat_ofInt]
  omega

/-- Settles O31: a quotient times the divisor is at most the dividend, and one more than it passes it. -/
theorem calcstepRoundsToNearest : Obligations.CalcstepRoundsToNearest := by
  intro c rate pitch hlo hhi raw adj st
  obtain ⟨hlow, hhigh⟩ := roundedStep_bounds hlo hhi rate pitch
  have hpos : (0 : Int) < c.fOut := by omega
  have hst : st = roundedStep c rate pitch := calcstep_toNat hlo hhi rate pitch
  have hadj : adj = adjustedRate rate pitch := rfl
  rw [hst, hadj]
  exact ⟨Int.ediv_mul_le _ hpos.ne', Int.lt_ediv_add_one_mul_self _ hpos, hlow, hhigh⟩

/-! ### Commands on a handle (40_voice_pool.md R132, R141 to R147) -/

/-- A command that changes the voice of a handle, on a valid one (40_voice_pool.md R143 to R145). -/
theorem State.onActiveVoice_of_handleAt {s : State} {i : Nat} {v : Voice} (h : s.HandleAt i v) (change : Voice → Voice) :
    s.onActiveVoice change = .next ((if v.active then s.setVoice i (change v) else s).complete 0) := by
  rw [State.onActiveVoice, State.lookup_iff_handleAt.2 h]

/-- An inactive voice is left alone (40_voice_pool.md R143 to R145). -/
theorem State.onActiveVoice_of_idle {s : State} {i : Nat} {v : Voice} (h : s.HandleAt i v) (hidle : v.active = false)
    (change : Voice → Voice) : s.onActiveVoice change = .next (s.complete 0) := by
  simp [State.onActiveVoice_of_handleAt h, hidle]

/-- An active voice is changed (40_voice_pool.md R143 to R145). -/
theorem State.onActiveVoice_of_active {s : State} {i : Nat} {v : Voice} (h : s.HandleAt i v) (hactive : v.active = true)
    (change : Voice → Voice) : s.onActiveVoice change = .next ((s.setVoice i (change v)).complete 0) := by
  simp [State.onActiveVoice_of_handleAt h, hactive]

/-- Settles O30: the three commands share their treatment of the handle and of an inactive voice, and differ in the
change. -/
theorem setpanSetpitchSetfreqResult : Obligations.SetpanSetpitchSetfreqResult := by
  intro s i v h vol left right silent rate
  have hvols := setvol_toNat vol left right
  refine ⟨fun hidle => ?_, fun hactive => ?_⟩
  · have hsame := State.onActiveVoice_of_idle h hidle
    exact ⟨hsame _, hsame _, hsame _⟩
  · have hchanged := State.onActiveVoice_of_active h hactive
    exact ⟨⟨_, _, hchanged _, hvols⟩, hchanged _, hchanged _⟩

/-- `STOP` of a valid handle makes its voice inactive (40_voice_pool.md R141). -/
theorem execStop_of_handleAt {s : State} {i : Nat} {v : Voice} (h : s.HandleAt i v) :
    execStop s = .next ((s.setVoice i { v with active := false }).complete 0) := by
  rw [execStop, State.lookup_iff_handleAt.2 h]

/-- `ISPLAYING` of a valid handle answers whether its voice is active (40_voice_pool.md R146). -/
theorem execIsplaying_of_handleAt {s : State} {i : Nat} {v : Voice} (h : s.HandleAt i v) :
    execIsplaying s = .next (s.complete (if v.active then 1 else 0)) := by
  rw [execIsplaying, State.lookup_iff_handleAt.2 h]

/-- `COUNTPLAYING` answers how many slots are active (40_voice_pool.md R147). -/
theorem execCountplaying_eq (s : State) :
    execCountplaying s = .next (s.complete (BitVec.ofNat 32 (s.voices.filter fun v => v.active).length)) := by
  rw [execCountplaying, List.countP_eq_length_filter]

/-- Settles O29, command by command. -/
theorem stopAndPlayingQueriesResult : Obligations.StopAndPlayingQueriesResult :=
  ⟨fun _ _ _ h => ⟨execStop_of_handleAt h, execIsplaying_of_handleAt h⟩, fun s => ⟨rfl, execCountplaying_eq s⟩⟩

/-! ### `PLAY` (40_voice_pool.md R131, R134, R136, R139) -/

/-- The argument checks pass exactly when none of the four finds something wrong (40_voice_pool.md R136). -/
theorem playArgsOk_iff (fmt : BitVec 4) (s : State) : playArgsOk fmt s = true ↔ ¬s.PlayRejects fmt := by
  have hrejects : s.PlayRejects fmt ↔
      (fmtAdpcm fmt = true ∧ (fmtF16 fmt = true ∨ fmtSigned fmt = true)) ∨ 2 ^ 32 < s.opAddr + s.opLen ∨
        s.opLen < playHdr s.cfg fmt + playUnit fmt ∨
        (fmtLoop fmt = true ∧ ¬(playHdr s.cfg fmt ≤ s.opLoopStart ∧ s.opLoopStart + playUnit fmt ≤ s.opLoopEnd ∧
          s.opLoopEnd ≤ s.opLen)) := Iff.rfl
  simp only [hrejects, playArgsOk, Bool.and_eq_true, Bool.or_eq_true, Bool.not_eq_true', decide_eq_true_eq, not_or,
    Nat.not_lt, not_and_not_right, ← Bool.not_eq_true, ← imp_iff_not_or, and_assoc]

/-- What `PLAY` programs before the prefill, with the decoder of the built variant started at the operand address
(40_voice_pool.md R139; 41_refill_adpcm.md R175, R179). -/
theorem Voice.readied_spec (v : Voice) (fmt : BitVec 4) (s : State) :
    v.readied fmt s =
      if fmtAdpcm fmt then
        match s.cfg.variant with
        | .a =>
          { v.programmed fmt s with
            ad := { v.ad with ref0 := s.mem.read s.opAddr, ref := s.mem.read s.opAddr, scale := 0 }
            srcCur := BitVec.ofNat 32 (s.opAddr + 1) }
        | .b => { v.programmed fmt s with ad := { v.ad with pred := 0, index := 0 } }
      else v.programmed fmt s := by
  have haddr : (BitVec.ofNat 32 s.opAddr).toNat = s.opAddr := Nat.mod_eq_of_lt (BitVec.isLt _)
  have hnext : BitVec.ofNat 32 s.opAddr + 1 = BitVec.ofNat 32 (s.opAddr + 1) := (BitVec.ofNat_add _ _).symm
  unfold Voice.readied Voice.adpcmStart
  cases fmtAdpcm fmt with
  | false => rfl
  | true =>
    cases s.cfg.variant with
    | a => simp only [Voice.programmed, haddr, hnext, if_true]
    | b => rfl

/-- An accepted `PLAY` takes effect in the slot that the scan answers, which holds `v` (40_voice_pool.md R136). -/
theorem execPlay_of_allocate {fmt : BitVec 4} {s : State} {i : Nat} {v : Voice} (hargs : playArgsOk fmt s = true)
    (halloc : allocate s.voices s.opPrio = some i) (hv : s.voices[i]? = some v) :
    execPlay fmt s = .next ((s.played fmt i v).complete (mkHandle (nextGen s.gen) i)) := by
  simp only [execPlay, hargs, halloc, hv, if_true, State.playInSlot_eq]

/-- The drop flag of a stolen sound (40_voice_pool.md R134, 43_callback_queue.md R231). -/
theorem enqueueFlags_eq (q : CallbackQueue) (flags : BitVec 8) :
    enqueueFlags q flags = if q.count = 32 then flags ||| 0x20 else flags := by
  rcases enqueueFlags_cases q flags with ⟨hfull, h⟩ | ⟨hroom, h⟩
  · rw [h, if_pos hfull]
  · rw [h, if_neg hroom]

/-- The flags after a sound was stolen, or no sound was. -/
theorem State.played_errflags (s : State) (fmt : BitVec 4) (i : Nat) (v : Voice) :
    (s.played fmt i v).errflags =
      if v.active = true ∧ s.cbq.count = 32 then s.errflags ||| 0x20 else s.errflags := by
  simp only [State.played, enqueueFlags_eq, ite_and]

/-- A refill with a unit left delivers a sample (41_refill_adpcm.md R171). -/
theorem Voice.refill_lcount_pos {v : Voice} (h : v.unitsLeft ≠ 0) (c : Config) (m : Memory) :
    1 ≤ (v.refill c m).lcount.toNat := by
  rcases v.refill_cases c m with ⟨-, he⟩ | ⟨h0, -⟩ | ⟨h0, -⟩
  · rw [he, Voice.fill_lcount]
    split <;> omega
  · exact absurd h0 h
  · exact absurd h0 h

/-- A voice starts at position 0 (40_voice_pool.md R139): the prefill does not move it. -/
theorem Voice.started_pos (v : Voice) (fmt : BitVec 4) (s : State) : (v.started fmt s).pos = 0 := by
  rw [Voice.started_eq, Voice.refill_frame, Voice.readied_eq]
  rfl

/-- Settles O28: the checks leave the slot to the arbiter; the voice started there is the one readied and prefilled, and the
readied one has a unit to decode. -/
theorem playStartsTheVoice : Obligations.PlayStartsTheVoice := by
  intro s fmt i v hok hgives rate vols ptr p first d w g
  have hargs : playArgsOk fmt s = true := (playArgsOk_iff fmt s).2 hok
  have hd : v.readied fmt s = d := v.readied_spec fmt s
  have hw : v.started fmt s = w := by rw [Voice.started_eq, hd]
  have hunits : d.unitsLeft ≠ 0 := hd ▸ v.readied_unitsLeft hargs
  have hrun : exec (.play fmt) s = .next ((s.played fmt i v).complete (mkHandle (nextGen s.gen) i)) :=
    execPlay_of_allocate hargs hgives.allocate_eq hgives.1
  refine ⟨Voice.refill_lcount_pos hunits _ _, d.refill_lcount_le _ _, hw ▸ v.started_pos fmt s,
    nextGen_ne_zero s.gen, ?_⟩
  rw [hrun, ← hw, ← s.played_errflags fmt i v]
  rfl

end Sys2Proof.Machine

/-! ## The refill unit and the ADPCM decoders (41_refill_adpcm.md) -/

namespace Sys2Proof.Machine

/-! ### One decoder step (41_refill_adpcm.md R176, R180) -/

/-- An unsigned byte less 128, in eight bits, is the signed difference (41_refill_adpcm.md R173, R176). -/
theorem sub_128_toInt (b : BitVec 8) : (b - 128).toInt = (b.toNat : Int) - 128 := by
  have hlt := b.isLt
  have hsub : (b - 128).toNat = (128 + b.toNat) % 256 := BitVec.toNat_sub b 128
  rw [BitVec.toInt_eq_toNat_cond, hsub]
  split <;> omega

/-- A value clamped to the 16-bit range keeps its value in a 16-bit field (41_refill_adpcm.md R180). -/
theorem ofInt_clamp_toInt (v : Int) : (BitVec.ofInt 16 (clamp v (-32768) 32767)).toInt = clamp v (-32768) 32767 := by
  have hbounds := clamp_bounds (v := v) (show (-32768 : Int) ≤ 32767 by omega)
  exact BitVec.toInt_ofInt_eq_self (by decide) hbounds.1 (by omega)

/-- A value clamped to `0..hi` keeps its value in a field that holds `hi`. -/
theorem ofInt_clamp_toNat {w hi : Nat} (h : hi < 2 ^ w) (v : Int) :
    ((BitVec.ofInt w (clamp v 0 hi)).toNat : Int) = clamp v 0 hi := by
  have hbounds := clamp_bounds (v := v) (Int.natCast_nonneg hi)
  have : (hi : Int) < 2 ^ w := by exact_mod_cast h
  rw [BitVec.toNat_ofInt]
  push_cast
  rw [Int.emod_eq_of_lt] <;> omega

/-- The high byte of a signed 16-bit number is its quotient by 256, rounded down (41_refill_adpcm.md R180). -/
theorem highByte_toInt (p : BitVec 16) : (p.extractLsb' 8 8).toInt = p.toInt / 256 := by
  have hlt := p.isLt
  rw [BitVec.toInt_eq_toNat_cond, BitVec.toInt_eq_toNat_cond, BitVec.extractLsb'_toNat, Nat.shiftRight_eq_div_pow]
  split <;> split <;> omega

/-- The tables of the decoders have the lengths that the look-ups need (41_refill_adpcm.md R177, R181). -/
theorem adpcmTables_length_of_wf {c : Config} (h : c.wf = true) :
    c.scaleMap.length = 64 ∧ c.adjustMap.length = 64 ∧ c.imaStep.length = 89 ∧ c.imaIndex.length = 8 := by
  unfold Config.wf at h
  simp only [Bool.and_eq_true, beq_iff_eq, and_assoc] at h
  obtain ⟨-, -, -, -, -, -, hscale, -, hadjust, -, hstep, -, hindex, -⟩ := h
  exact ⟨hscale, hadjust, hstep, hindex⟩

/-- A look-up within the table answers the table's entry (00_scope.md R8; log 13). -/
theorem getElem?_eq_some_getD {α : Type} {l : List α} {i : Nat} (h : i < l.length) (d : α) :
    l[i]? = some (l.getD i d) := by
  rw [List.getD_eq_getElem _ _ h, List.getElem?_eq_getElem h]

/-- Settles O37: the tables have an entry for every index that a step forms, and every clamped value fits its field. -/
theorem adpcmDecodeStep : Obligations.AdpcmDecodeStep := by
  intro c ad n hwf
  obtain ⟨hscale, hadjust, hstep, hindex⟩ := adpcmTables_length_of_wf hwf
  constructor
  · intro idx r
    exact ⟨_, _, getElem?_eq_some_getD (by omega) 0, getElem?_eq_some_getD (by omega) 0,
      ofInt_clamp_toNat (by decide) _, BitVec.toNat_ofNat _ _, sub_128_toInt _, rfl⟩
  · intro hmax r
    have hcode : (n.extractLsb' 0 3).toNat = n.toNat % 8 := BitVec.extractLsb'_toNat _ _ _
    refine ⟨_, _, getElem?_eq_some_getD (by omega) 0, getElem?_eq_some_getD (by omega) 0,
      ofInt_clamp_toInt _, ?_, highByte_toInt _, rfl⟩
    rw [← hcode]
    exact ofInt_clamp_toNat (by decide) _

/-! ### What the copying part delivers (41_refill_adpcm.md R171, R173, R174) -/

/-- A PCM sample as a number (41_refill_adpcm.md R173). -/
theorem pcm8_toInt (b : Byte) (sgn : Bool) : (pcm8 b sgn).toInt = if sgn then b.toInt else (b.toNat : Int) - 128 := by
  cases sgn with
  | false => exact sub_128_toInt b
  | true => rfl

/-- The copying part of a PCM voice, field by field (41_refill_adpcm.md R171). -/
theorem Voice.fill_of_pcm {v : Voice} (h : v.fadpcm = false) (c : Config) (m : Memory) :
    let n := min 256 v.unitsLeft
    v.fill c m = { v with
      lbuf := pcmRun m v.unit v.fsigned v.srcCur.toNat n ++ v.lbuf.drop n, lcount := BitVec.ofNat 9 n
      srcCur := v.srcCur + BitVec.ofNat 32 (n * v.unit) } := by
  simp [Voice.fill, Voice.load, h]

/-- The copying part of an ADPCM voice, field by field (41_refill_adpcm.md R171). -/
theorem Voice.fill_of_adpcm {v : Voice} (h : v.fadpcm = true) (c : Config) (m : Memory) :
    let nb := min 128 v.unitsLeft
    let run := adpcmRun c m nb v.srcCur.toNat v.ad
    v.fill c m = { v with
      lbuf := run.2 ++ v.lbuf.drop (2 * nb), lcount := BitVec.ofNat 9 (2 * nb)
      srcCur := v.srcCur + BitVec.ofNat 32 nb, ad := run.1 } := by
  simp [Voice.fill, Voice.load, h]

/-- The source bytes that the copying part of a PCM voice consumes (41_refill_adpcm.md R171). -/
theorem Voice.fillBytes_of_pcm {v : Voice} (h : v.fadpcm = false) : v.fillBytes = min 256 v.unitsLeft * v.unit := by
  simp [Voice.fillBytes, h]

/-- The source bytes that the copying part of an ADPCM voice consumes (41_refill_adpcm.md R171). -/
theorem Voice.fillBytes_of_adpcm {v : Voice} (h : v.fadpcm = true) : v.fillBytes = min 128 v.unitsLeft := by
  simp [Voice.fillBytes, h]

/-- With a unit left a refill is its copying part (41_refill_adpcm.md R171). -/
theorem Voice.refill_of_unitsLeft {v : Voice} (h : v.unitsLeft ≠ 0) (c : Config) (m : Memory) :
    v.refill c m = v.fill c m := if_neg h

/-- New entries in front of a list leave those behind them (41_refill_adpcm.md R171; 10_state.md R38). -/
theorem append_drop_getElem? {α : Type} {xs l : List α} {n k : Nat} (hlen : xs.length = n) (hk : n ≤ k) :
    (xs ++ l.drop n)[k]? = l[k]? := by
  rw [List.getElem?_append_right (hlen ▸ hk), hlen, List.getElem?_drop, Nat.add_sub_cancel' hk]

/-- Settles O32: the new samples are those of a PCM run, in front of what the buffer held behind them. -/
theorem pcmRefillResult : Obligations.PcmRefillResult := by
  intro c m v hpcm unit eff units n hunits
  have hlen : (pcmRun m v.unit v.fsigned v.srcCur.toNat n).length = n := pcmRun_length ..
  refine ⟨_, (Voice.refill_of_unitsLeft hunits c m).trans (Voice.fill_of_pcm hpcm c m), fun k hk => ?_, fun k hk => ?_⟩
  · have hk' : k < (pcmRun m v.unit v.fsigned v.srcCur.toNat n).length := hlen.symm ▸ hk
    refine ⟨_, (List.getElem?_append_left hk').trans (List.getElem?_eq_getElem hk'), ?_⟩
    rw [pcmRun_getElem]
    exact pcm8_toInt _ _
  · exact append_drop_getElem? hlen hk

/-- The codes of `nb` bytes from address `a`, the high one of each first (41_refill_adpcm.md R174). -/
def adpcmCodes (m : Memory) (a nb : Nat) : List (BitVec 4) :=
  (List.range nb).flatMap fun k => [(m.read (a + k)).extractLsb' 4 4, (m.read (a + k)).extractLsb' 0 4]

/-- The first byte's two codes stand in front of those of the bytes after it (41_refill_adpcm.md R174). -/
theorem adpcmCodes_succ (m : Memory) (a nb : Nat) :
    adpcmCodes m a (nb + 1) =
      (m.read a).extractLsb' 4 4 :: (m.read a).extractLsb' 0 4 :: adpcmCodes m (a + 1) nb := by
  simp [adpcmCodes, List.range_succ_eq_map, List.flatMap_map, Nat.add_assoc, Nat.add_comm 1]

/-- One code through the decoder: its sample goes behind those before it (41_refill_adpcm.md R171, R174). -/
def decodeCode (c : Config) (st : Adpcm × List (BitVec 8)) (n : BitVec 4) : Adpcm × List (BitVec 8) :=
  ((adpcmDecode c st.1 n).1, st.2 ++ [(adpcmDecode c st.1 n).2])

/-- An ADPCM run is its codes through the decoder, one after the other (41_refill_adpcm.md R171, R174). -/
theorem foldl_decodeCode (c : Config) (m : Memory) : ∀ (nb a : Nat) (ad : Adpcm) (out : List (BitVec 8)),
    (adpcmCodes m a nb).foldl (decodeCode c) (ad, out) =
      ((adpcmRun c m nb a ad).1, out ++ (adpcmRun c m nb a ad).2)
  | 0, _, _, out => by simp [adpcmCodes, adpcmRun]
  | nb + 1, a, ad, out => by
    simp [adpcmCodes_succ, decodeCode, adpcmRun, foldl_decodeCode c m nb]

/-- The decoder is that of the built variant (00_scope.md R8). -/
theorem adpcmDecode_of_variant (c : Config) (ad : Adpcm) (n : BitVec 4) :
    (c.variant = .a → adpcmDecode c ad n = adpcmDecodeA c ad n) ∧
    (c.variant = .b → adpcmDecode c ad n = adpcmDecodeB c ad n) := by
  constructor
  · intro h; rw [adpcmDecode, h]
  · intro h; rw [adpcmDecode, h]

/-- A voice of one-byte units has as many units left as bytes (41_refill_adpcm.md R171). -/
theorem Voice.unitsLeft_of_not_f16 {v : Voice} (h : v.f16 = false) : v.unitsLeft = v.bytesLeft := by
  simp [Voice.unitsLeft, Voice.unit, h]

/-- Bytes are left exactly when the cursor is not at the end (41_refill_adpcm.md R171; log 7). -/
theorem Voice.bytesLeft_ne_zero_iff (v : Voice) : v.bytesLeft ≠ 0 ↔ v.srcCur ≠ v.effEnd := by
  unfold Voice.bytesLeft
  bv_omega

/-- Settles O33: the copying part's run is the codes through the decoder. -/
theorem adpcmRefillResult : Obligations.AdpcmRefillResult := by
  refine ⟨adpcmDecode_of_variant, ?_⟩
  intro c m v hadpcm hf16 eff nb codes run hne
  have hunits : v.unitsLeft = v.bytesLeft := Voice.unitsLeft_of_not_f16 hf16
  have hleft : v.unitsLeft ≠ 0 := hunits ▸ v.bytesLeft_ne_zero_iff.2 hne
  have hrun : run = adpcmRun c m nb v.srcCur.toNat v.ad := foldl_decodeCode c m nb v.srcCur.toNat v.ad []
  rw [Voice.refill_of_unitsLeft hleft, Voice.fill_of_adpcm hadpcm, hunits, hrun]
  rfl

/-! ### The end of a source (41_refill_adpcm.md R171, R172, R178, R182) -/

/-- No unit is left exactly when the bytes left do not make one (41_refill_adpcm.md R171). -/
theorem Voice.unitsLeft_eq_zero_iff (v : Voice) : v.unitsLeft = 0 ↔ v.bytesLeft < v.unit :=
  Nat.div_eq_zero_iff_lt v.unit_pos.1

/-- A refill of an exhausted source that does not loop delivers nothing (41_refill_adpcm.md R171). -/
theorem Voice.refill_of_exhausted {v : Voice} (h : v.unitsLeft = 0) (hloop : v.looping = false) (c : Config)
    (m : Memory) : v.refill c m = { v with lcount := 0 } := by
  simp [Voice.refill, h, hloop]

/-- A refill at the end of a loop is the copying part of the rewound voice (41_refill_adpcm.md R172). -/
theorem Voice.refill_of_loopEnd {v : Voice} (h : v.unitsLeft = 0) (hloop : v.looping = true) (c : Config) (m : Memory) :
    v.refill c m = (v.rewind c).fill c m := by
  simp [Voice.refill, h, hloop]

/-- A loop that holds a unit has one left after the rewind (41_refill_adpcm.md R172). -/
theorem Voice.rewind_unitsLeft {v : Voice} (hloop : v.looping = true) (h : v.unit ≤ (v.loopEnd - v.loopStart).toNat)
    (c : Config) : (v.rewind c).unitsLeft ≠ 0 := by
  have hleft : (v.rewind c).bytesLeft = (v.loopEnd - v.loopStart).toNat := by
    simp [Voice.bytesLeft, Voice.effEnd, Voice.rewind, hloop]
  rw [Ne, Voice.unitsLeft_eq_zero_iff, hleft]
  exact Nat.not_lt.2 h

/-- The copying part delivers a sample when a unit is left (41_refill_adpcm.md R171). -/
theorem Voice.fill_lcount_ne_zero {v : Voice} (h : v.unitsLeft ≠ 0) (c : Config) (m : Memory) :
    (v.fill c m).lcount ≠ 0 := by
  have hpos := Voice.refill_lcount_pos h c m
  rw [Voice.refill_of_unitsLeft h] at hpos
  intro hzero
  rw [hzero] at hpos
  exact absurd hpos (by decide)

/-- A refill delivers nothing exactly at the end of a source that does not loop, if every loop holds a unit
(41_refill_adpcm.md R170). -/
theorem Voice.refill_lcount_eq_zero_iff {v : Voice}
    (hholds : v.looping = true → v.unit ≤ (v.loopEnd - v.loopStart).toNat) (c : Config) (m : Memory) :
    (v.refill c m).lcount = 0 ↔ v.looping = false ∧ v.unitsLeft = 0 := by
  rcases v.refill_cases c m with ⟨hunits, hcopied⟩ | ⟨-, hloop, hrewound⟩ | ⟨hzero, hloop, hended⟩
  · rw [hcopied]
    exact iff_of_false (Voice.fill_lcount_ne_zero hunits c m) fun hend => hunits hend.2
  · rw [hrewound]
    have hunits : (v.rewind c).unitsLeft ≠ 0 := Voice.rewind_unitsLeft hloop (hholds hloop) c
    exact iff_of_false (Voice.fill_lcount_ne_zero hunits c m) fun hend => absurd (hend.1.symm.trans hloop) (by decide)
  · rw [hended]
    exact iff_of_true rfl ⟨hloop, hzero⟩

/-- Settles O34: fewer bytes than a unit are no unit, and the rewound voice of R172 has its decoder reset. -/
theorem refillEndsOrRewinds : Obligations.RefillEndsOrRewinds := by
  intro c m v unit eff left hholds
  have hzero : v.unitsLeft = 0 ↔ left < unit := v.unitsLeft_eq_zero_iff
  refine ⟨(Voice.refill_lcount_eq_zero_iff hholds c m).trans (and_congr_right' hzero),
    fun hloop hleft => Voice.refill_of_exhausted (hzero.2 hleft) hloop c m, fun hloop hleft => ?_⟩
  have hrewound : (v.rewind c).unitsLeft ≠ 0 := Voice.rewind_unitsLeft hloop (hholds hloop) c
  exact (Voice.refill_of_loopEnd (hzero.2 hleft) hloop c m).trans (Voice.refill_of_unitsLeft hrewound c m).symm

/-! ### The bytes a refill reads (41_refill_adpcm.md R171, R172) -/

/-- Two memories hold the same bytes from the cursor of a voice up to its effective end. -/
def Voice.SourceAgrees (v : Voice) (m m' : Memory) : Prop :=
  ∀ k, k < v.bytesLeft → m.read (v.srcCur.toNat + k) = m'.read (v.srcCur.toNat + k)

/-- The copying part reads the bytes it consumes, and these are left in the source (41_refill_adpcm.md R171). -/
theorem Voice.SourceAgrees.fill_eq {v : Voice} {m m' : Memory} (h : v.SourceAgrees m m') (c : Config) :
    v.fill c m = v.fill c m' := by
  have hread : ∀ b, v.srcCur.toNat ≤ b → b < v.srcCur.toNat + v.fillBytes → m.read b = m'.read b := by
    intro b hlo hhi
    have hsame := h (b - v.srcCur.toNat) (by have := v.fillBytes_le; omega)
    rwa [Nat.add_sub_cancel' hlo] at hsame
  cases hf : v.fadpcm with
  | false =>
    rw [Voice.fillBytes_of_pcm hf] at hread
    rw [Voice.fill_of_pcm hf, Voice.fill_of_pcm hf, pcmRun_congr v.unit v.unit_pos.1 v.fsigned _ _ hread]
  | true =>
    rw [Voice.fillBytes_of_adpcm hf] at hread
    rw [Voice.fill_of_adpcm hf, Voice.fill_of_adpcm hf, adpcmRun_congr c _ _ v.ad hread]

/-- Settles O35: a refill is the copying part of the voice, or of the rewound voice, or reads nothing. -/
theorem refillReadsOnlyItsSource : Obligations.RefillReadsOnlyItsSource := by
  intro c m m' v eff hsource hloopSource
  have hagree : v.SourceAgrees m m' := hsource
  by_cases hunits : v.unitsLeft = 0
  · cases hloop : v.looping with
    | false => rw [Voice.refill_of_exhausted hunits hloop, Voice.refill_of_exhausted hunits hloop]
    | true =>
      have hrewound : (v.rewind c).SourceAgrees m m' := hloopSource hloop
      rw [Voice.refill_of_loopEnd hunits hloop, Voice.refill_of_loopEnd hunits hloop, hrewound.fill_eq c]
  · rw [Voice.refill_of_unitsLeft hunits, Voice.refill_of_unitsLeft hunits, hagree.fill_eq c]

/-! ### The samples still to come (41_refill_adpcm.md R183) -/

/-- The copying part delivers the samples still to come, up to 256 (41_refill_adpcm.md R183). -/
theorem Voice.fill_lcount_samplesLeft (v : Voice) (c : Config) (m : Memory) :
    (v.fill c m).lcount.toNat = min 256 v.samplesLeft := by
  rw [v.fill_lcount, Voice.samplesLeft]
  split <;> omega

/-- Where the copying part consumes `n` whole units, that many fewer are left (41_refill_adpcm.md R171). -/
theorem Voice.fill_unitsLeft {v : Voice} {n : Nat} (h : v.fillBytes = v.unit * n) (c : Config) (m : Memory) :
    (v.fill c m).unitsLeft = v.unitsLeft - n := by
  have hunit : (v.fill c m).unit = v.unit := by rw [v.fill_frame]; rfl
  rw [Voice.unitsLeft, hunit, v.fill_bytesLeft, h, Nat.sub_mul_div, Voice.unitsLeft]

/-- The copying part leaves the samples it did not deliver, in every format that `PLAY` accepts
(41_refill_adpcm.md R183; 40_voice_pool.md R136). -/
theorem Voice.fill_samplesLeft {v : Voice} (h : ¬(v.fadpcm = true ∧ v.f16 = true)) (c : Config) (m : Memory) :
    (v.fill c m).samplesLeft = v.samplesLeft - min 256 v.samplesLeft := by
  have hformat : (v.fill c m).fadpcm = v.fadpcm := by rw [v.fill_frame]
  unfold Voice.samplesLeft
  rw [hformat]
  cases hf : v.fadpcm with
  | false =>
    have hunits := Voice.fill_unitsLeft ((Voice.fillBytes_of_pcm hf).trans (Nat.mul_comm _ _)) c m
    simpa using hunits
  | true =>
    have hf16 : v.f16 = false := by simpa [hf] using h
    have hunit : v.unit = 1 := by simp [Voice.unit, hf16]
    have hbytes : v.fillBytes = v.unit * min 128 v.unitsLeft := by rw [Voice.fillBytes_of_adpcm hf, hunit, Nat.one_mul]
    rw [Voice.fill_unitsLeft hbytes, if_pos rfl, if_pos rfl]
    omega

/-- Settles O36: with a unit left the copying part counts the samples down; with none left there are no samples. -/
theorem refillCountsTheSamplesDown : Obligations.RefillCountsTheSamplesDown := by
  intro c m v hloop hformat
  by_cases hunits : v.unitsLeft = 0
  · have hsamples : v.samplesLeft = 0 := by simp [Voice.samplesLeft, hunits]
    rw [Voice.refill_of_exhausted hunits hloop]
    exact ⟨by rw [hsamples]; rfl, by rw [hsamples]; exact hsamples⟩
  · rw [Voice.refill_of_unitsLeft hunits]
    exact ⟨v.fill_lcount_samplesLeft c m, Voice.fill_samplesLeft hformat c m⟩

end Sys2Proof.Machine

/-! ## The mixer (42_mixer.md) -/

namespace Sys2Proof.Machine

/-! ### One frame (42_mixer.md R202, R204, R205, R207) -/

/-- Accumulating makes a word the clamped sum (42_mixer.md R205). -/
theorem accumulate_read16_same (m : Memory) (a : Nat) (c : Int) :
    ((accumulate m a c).read16 a).toInt = clamp ((m.read16 a).toInt + c) (-32768) 32767 := by
  rw [accumulate, Memory.read16_write16_same, ofInt_clamp_toInt]

/-- Accumulating leaves the other words alone (42_mixer.md R205). -/
theorem accumulate_read16_other (m : Memory) {a a' : Nat} (c : Int) (h : a' + 2 ≤ a ∨ a + 2 ≤ a') :
    (accumulate m a c).read16 a' = m.read16 a' := Memory.read16_write16_other _ _ h

/-- MEM after a voice's output `y` of one frame is added with the gains `g`, left at `a`, right at `a + 2`
(42_mixer.md R205). -/
def addOutput (g : Nat × Nat) (a : Nat) (y : Int) (m : Memory) : Memory :=
  accumulate (accumulate m a (y * g.1)) (a + 2) (y * g.2)

/-- A frame adds the voice's sample (42_mixer.md R205). -/
theorem State.mixFrameMem_eq_addOutput (s : State) (g : Nat × Nat) (a : Nat) (v : Voice) (m : Memory) :
    s.mixFrameMem g a v m = addOutput g a (s.mixSample v) m := rfl

/-- The two words of a frame after a voice's output is added (42_mixer.md R205). -/
theorem addOutput_read16 (g : Nat × Nat) (a : Nat) (y : Int) (m : Memory) :
    ((addOutput g a y m).read16 a).toInt = clamp ((m.read16 a).toInt + y * g.1) (-32768) 32767 ∧
    ((addOutput g a y m).read16 (a + 2)).toInt = clamp ((m.read16 (a + 2)).toInt + y * g.2) (-32768) 32767 := by
  constructor
  · rw [addOutput, accumulate_read16_other _ _ (by omega), accumulate_read16_same]
  · rw [addOutput, accumulate_read16_same, accumulate_read16_other _ _ (by omega)]

/-- Settles O42: the second word's sum is formed after the first word is written, which leaves it alone. -/
theorem frameAccumulatesWithSaturation : Obligations.FrameAccumulatesWithSaturation := by
  intro s gl gr a v m hwf ha m'
  obtain ⟨hleft, hright⟩ := addOutput_read16 (gl, gr) a (s.mixSample v) m
  exact ⟨hleft, hright, s.mixFrameMem_wf (gl, gr) v hwf ha, fun b hb => s.mixFrameMem_read_other (gl, gr) v m hb⟩

/-- A signed byte is in -128..127. -/
theorem toInt_byte_bounds (b : BitVec 8) : -128 ≤ b.toInt ∧ b.toInt ≤ 127 := by
  have hlow := BitVec.le_toInt b
  have hhigh := BitVec.toInt_lt (x := b)
  omega

/-- The filter's output is a signed 8-bit value: its weights sum to at most 256 (42_mixer.md R207). -/
theorem lowPass_bounds {beta alpha : Nat} (h : alpha + beta ≤ 256) {prev x : Int} (hprev : -128 ≤ prev ∧ prev ≤ 127)
    (hx : -128 ≤ x ∧ x ≤ 127) :
    -128 ≤ ((beta : Int) * prev + alpha * x).tdiv 256 ∧ ((beta : Int) * prev + alpha * x).tdiv 256 ≤ 127 := by
  have hsum : (alpha : Int) + beta ≤ 256 := by exact_mod_cast h
  have hlow : -32768 ≤ (beta : Int) * prev + alpha * x := by nlinarith
  have hhigh : (beta : Int) * prev + alpha * x ≤ 32512 := by nlinarith
  exact ⟨Int.tdiv_le_tdiv (by decide) hlow, Int.tdiv_le_tdiv (by decide) hhigh⟩

/-- A gain is at most 127 (42_mixer.md R202). -/
theorem gain_le (vol masterVol : BitVec 8) : gain vol masterVol ≤ 127 := by
  have hvol : vol.toNat ≤ 255 := by omega
  have hmaster : masterVol.toNat + 1 ≤ 256 := by omega
  have hprod := Nat.mul_le_mul hvol hmaster
  unfold gain
  omega

/-- Settles O43: the output of the filter fits the eight bits that store it. -/
theorem filterAndGainsStayInRange : Obligations.FilterAndGainsStayInRange := by
  intro s v hfilter
  obtain ⟨hlow, hhigh⟩ : -128 ≤ s.lowPass v ∧ s.lowPass v ≤ 127 :=
    lowPass_bounds hfilter (toInt_byte_bounds v.lpPrev) (toInt_byte_bounds _)
  refine ⟨rfl, hlow, hhigh, fun hon => ⟨?_, if_pos hon⟩, fun hoff => ?_, ?_⟩
  · simp only [State.mixFrameVoice, hon, if_true]
    exact BitVec.toInt_ofInt_eq_self (by decide) hlow (by omega)
  · simp [State.mixFrameVoice, hoff]
  · unfold State.gains
    split
    · exact ⟨gain_le _ _, gain_le _ _⟩
    · exact ⟨gain_le _ _, gain_le _ _⟩

/-! ### The bed (42_mixer.md R201) -/

/-- The silence fill makes every byte of its range 0 (42_mixer.md R201). -/
theorem silenceFill_read_inside (n : Nat) : ∀ (m : Memory) (a a' : Nat), a ≤ a' → a' < a + 2 * n →
    (silenceFill m a n).read a' = 0 := by
  induction n with
  | zero => intro m a a' hlow hhigh; omega
  | succ n ih =>
    intro m a a' hlow hhigh
    rw [silenceFill]
    by_cases hrest : a + 2 ≤ a'
    · exact ih _ _ _ hrest (by omega)
    · rw [silenceFill_read_other _ _ _ _ (by omega)]
      obtain rfl | rfl : a' = a ∨ a' = a + 1 := by omega
      · exact Memory.read_write16_low _ _ _
      · exact Memory.read_write16_high _ _ _

/-- A byte of the bed without a music generator (42_mixer.md R201). -/
theorem State.mixBed_read_silence {s : State} (h : s.musicGen = false) (buf a : Nat) :
    (s.mixBed buf).read a = if buf ≤ a ∧ a < buf + 4 * s.cfg.nf then 0 else s.mem.read a := by
  split
  · rename_i hin
    rw [State.mixBed, h]
    exact silenceFill_read_inside _ _ _ _ hin.1 (by omega)
  · exact s.mixBed_read_other (by omega)

/-- A word of the bed (42_mixer.md R201). -/
theorem State.mixBed_read16 (s : State) {buf a : Nat} (hlow : buf ≤ a) (hhigh : a + 2 ≤ buf + 4 * s.cfg.nf) :
    ((s.mixBed buf).read16 a).toInt = if s.musicGen then (s.mem.read16 a).toInt else 0 := by
  cases hgen : s.musicGen with
  | true => simp [State.mixBed, hgen]
  | false =>
    rw [Memory.read16, State.mixBed_read_silence hgen, State.mixBed_read_silence hgen, if_pos (by omega),
      if_pos (by omega)]
    rfl

/-! ### The whole pass (42_mixer.md R200, R203) -/

/-- `MIX` with a legal buffer ends as its pass does (42_mixer.md R200). -/
theorem exec_mix_of_pass {s : State} (halign : (s.x.get 0).toNat % 4 = 0)
    (hfits : (s.x.get 0).toNat + 4 * s.cfg.nf ≤ 2 ^ 32) {vs : List Voice} {acc : MixAcc}
    (hpass : s.mixVoices (s.x.get 0).toNat s.voices ⟨s.mixBed (s.x.get 0).toNat, s.cbq, s.errflags, 0⟩ = (vs, acc)) :
    exec .mix s = .next { s with
      voices := vs, mem := acc.mem, cbq := acc.cbq, errflags := acc.flags, res := BitVec.ofNat 32 acc.done,
      err := 0 } := by
  have hargs : s.mixArgsOk = true := by
    simp only [State.mixArgsOk, State.opAddr, State.xu, Bool.and_eq_true, beq_iff_eq]
    exact ⟨halign, decide_eq_true hfits⟩
  rcases execMix_cases s with ⟨hbad, -⟩ | ⟨-, vs', acc', hpass', hrun⟩
  · simp [hargs] at hbad
  · have hsame : (vs, acc) = (vs', acc') := hpass.symm.trans hpass'
    cases hsame
    exact hrun

/-- A voice that does not take part is left alone (42_mixer.md R203). -/
theorem State.mixVoice_of_not_takesPart (s : State) (buf : Nat) {v : Voice} (h : v.takesPart = false) (acc : MixAcc) :
    s.mixVoice buf v acc = (v, acc) := by
  simp [State.mixVoice, h]

/-- A pass in which no voice takes part changes nothing (42_mixer.md R203). -/
theorem State.mixVoices_of_none (s : State) (buf : Nat) : ∀ (vs : List Voice) (acc : MixAcc),
    (∀ v ∈ vs, v.takesPart = false) → s.mixVoices buf vs acc = (vs, acc)
  | [], _, _ => rfl
  | v :: vs, acc, h => by
    rw [State.mixVoices_cons, s.mixVoice_of_not_takesPart buf (h v List.mem_cons_self),
      State.mixVoices_of_none s buf vs acc fun w hw => h w (List.mem_cons_of_mem v hw)]

/-- Settles O39: the pass ends with its bed. -/
theorem mixOfNoVoiceIsTheBed : Obligations.MixOfNoVoiceIsTheBed := by
  intro s _ halign hfits hnone
  have hidle : ∀ v ∈ s.voices, v.takesPart = false := by
    intro v hv
    rcases hnone v hv with h | h <;> simp [Voice.takesPart, h]
  exact ⟨s.mixBed (s.x.get 0).toNat, exec_mix_of_pass halign hfits (s.mixVoices_of_none _ _ _ hidle),
    fun hgen => by rw [State.mixBed, hgen]; rfl, fun hgen a => State.mixBed_read_silence hgen _ a⟩

/-! ### Looping voices (42_mixer.md R211) -/

/-- What a looping voice keeps through a pass. -/
def Voice.LoopsOn (v : Voice) : Prop := v.active = true ∧ v.looping = true ∧ v.lcount ≠ 0 ∧ v.SourceOk

/-- A refill of a looping voice brings samples: its loop holds a unit (41_refill_adpcm.md R172). -/
theorem Voice.LoopsOn.refill {v : Voice} (h : v.LoopsOn) (c : Config) (m : Memory) : (v.refill c m).LoopsOn := by
  obtain ⟨hactive, hloop, -, hsource⟩ := h
  obtain ⟨-, hloopOk⟩ := hsource hactive
  obtain ⟨-, hunit, -⟩ := hloopOk hloop
  have hframe := v.refill_frame c m
  refine ⟨by rw [hframe]; exact hactive, by rw [hframe]; exact hloop, fun hzero => ?_, Voice.refill_sourceOk hsource
    c m⟩
  obtain ⟨hends, -⟩ := (Voice.refill_lcount_eq_zero_iff (fun _ => hunit) c m).1 hzero
  exact absurd (hends.symm.trans hloop) (by decide)

/-- One voice's share of a pass leaves a looping voice active and looping: the pass does not end with an empty buffer
(42_mixer.md R208, R211). -/
theorem State.mixVoice_loopsOn (s : State) (buf : Nat) {v : Voice} (h : v.LoopsOn) (hbuffer : v.BufferOk)
    (acc : MixAcc) :
    (s.mixVoice buf v acc).1.LoopsOn := by
  have hkept := s.mixFrames_induct (s.gains v) Voice.LoopsOn (fun _ _ h => h) (fun _ _ h => h)
    (fun _ m h => h.refill s.cfg m) s.cfg.nf buf refillCap v acc.mem h
  have hend := s.mixFrames_end (s.gains v) s.cfg.nf buf refillCap v acc.mem h.2.2.1 (hbuffer h.1).2.2
  rcases s.mixVoice_cases buf v acc with ⟨-, hc⟩ | ⟨-, v', m, hm, hc⟩ | ⟨-, v', m, hm, hc⟩ | ⟨-, v', m, hm, hc⟩ <;>
    rw [hc]
  case inl => exact h
  all_goals rw [hm] at hkept hend
  case inr.inl => exact hkept
  case inr.inr.inl => exact hkept
  obtain ⟨-, -, hcount, -⟩ := hkept
  rcases hend with ⟨hplays, -⟩ | ⟨-, hzero, -⟩ | ⟨hcapped, -⟩
  · cases hplays
  · exact absurd hzero hcount
  · cases hcapped

/-- A relation that each voice's share establishes holds slot by slot after the pass (42_mixer.md R203). -/
theorem State.mixVoices_forall₂ (s : State) (buf : Nat) (R : Voice → Voice → Prop) : ∀ (vs : List Voice) (acc : MixAcc),
    (∀ v ∈ vs, ∀ acc, R v (s.mixVoice buf v acc).1) → List.Forall₂ R vs (s.mixVoices buf vs acc).1
  | [], _, _ => .nil
  | v :: vs, acc, h => .cons (h v List.mem_cons_self acc)
    (State.mixVoices_forall₂ s buf R vs _ fun w hw => h w (List.mem_cons_of_mem v hw))

/-- Two lists related place by place are related at a place that both have. -/
theorem forall₂_getElem? {α : Type} {R : α → α → Prop} {l l' : List α} (h : List.Forall₂ R l l') {j : Nat} {a b : α}
    (ha : l[j]? = some a) (hb : l'[j]? = some b) : R a b := by
  obtain ⟨hj, rfl⟩ := List.getElem?_eq_some_iff.1 ha
  obtain ⟨hj', rfl⟩ := List.getElem?_eq_some_iff.1 hb
  exact h.get hj hj'

/-- Settles O44: a pass keeps `Voice.LoopsOn`, and a failing `MIX` keeps the voices. -/
theorem mixNeverEndsALoopingVoice : Obligations.MixNeverEndsALoopingVoice := by
  intro s t j v w hs hexec hv hw hactive hloop
  rcases execMix_cases s with ⟨-, hfail⟩ | ⟨-, vs, acc, hpass, hrun⟩
  · cases hfail.symm.trans hexec
    cases hv.symm.trans hw
    exact ⟨hactive, hloop⟩
  · cases hrun.symm.trans hexec
    have hslots := s.mixVoices_forall₂ s.opAddr (fun v w => v.active = true → v.looping = true → w.LoopsOn) s.voices
      ⟨s.mixBed s.opAddr, s.cbq, s.errflags, 0⟩ fun v hv acc hactive hloop => by
        have hbuffer := hs.buffers v hv
        have hcount : v.lcount ≠ 0 := fun h0 => by have := (hbuffer hactive).1; simp [h0] at this
        exact s.mixVoice_loopsOn _ ⟨hactive, hloop, hcount, hs.sources v hv⟩ hbuffer acc
    rw [hpass] at hslots
    obtain ⟨hactive', hloop', -⟩ := forall₂_getElem? hslots hv hw hactive hloop
    exact ⟨hactive', hloop'⟩

end Sys2Proof.Machine

/-! ## The tally of a mix (42_mixer.md R200, R203, R208, R209; 43_callback_queue.md R231) -/

namespace Sys2Proof.Machine

/-! ### Several tokens in a row (43_callback_queue.md R231) -/

/-- The tokens put into a queue one after the other (43_callback_queue.md R231). -/
abbrev CallbackQueue.enqueueAll (q : CallbackQueue) (ts : List Word) : CallbackQueue :=
  ts.foldl (fun q t => q.enqueue t) q

/-- The mark of `F_CBQ_OVF` when `n` more tokens do not all fit (43_callback_queue.md R231). -/
def CallbackQueue.overflow (q : CallbackQueue) (n : Nat) : BitVec 8 := if 32 < q.count.toNat + n then 0x20 else 0

/-- A queue holds as many tokens as it counts (10_state.md R40). -/
@[simp] theorem CallbackQueue.tokens_length (q : CallbackQueue) : q.tokens.length = q.count.toNat := by
  simp [CallbackQueue.tokens]

/-- A token that fits goes behind the others (43_callback_queue.md R231): no older token lies at the tail. -/
theorem CallbackQueue.tokens_push {q : CallbackQueue} (h : q.Ok) (hne : q.count ≠ 32) (t : Word) :
    (q.push t).tokens = q.tokens ++ [t] := by
  obtain ⟨hcount, htail⟩ := h
  have hlt : q.count.toNat < 32 := by bv_omega
  have hsucc : (q.count + 1).toNat = q.count.toNat + 1 := by bv_omega
  have hent (k : Nat) : (q.push t).ent.get (Fin.ofNat 32 (q.head.toNat + k)) =
      if q.tail.toNat = (q.head.toNat + k) % 32 then t else q.ent.get (Fin.ofNat 32 (q.head.toNat + k)) :=
    Vector.getElem_set q.tail.isLt _
  unfold CallbackQueue.tokens
  rw [CallbackQueue.push_count, CallbackQueue.push_head, hsucc, List.range_succ, List.map_append]
  congr 1
  · refine List.map_congr_left fun k hk => ?_
    have hk := List.mem_range.1 hk
    rw [hent, if_neg (by omega)]
  · rw [List.map_singleton, hent, if_pos htail]

/-- A full queue holds 32 tokens (43_callback_queue.md R231). -/
theorem CallbackQueue.tokens_length_of_full {q : CallbackQueue} (h : q.count = 32) : q.tokens.length = 32 := by
  rw [q.tokens_length, h]
  rfl

/-- The tokens that do not fit are dropped (43_callback_queue.md R231). -/
theorem CallbackQueue.tokens_enqueueAll {q : CallbackQueue} (h : q.Ok) (ts : List Word) :
    (q.enqueueAll ts).tokens = (q.tokens ++ ts).take 32 := by
  induction ts generalizing q with
  | nil =>
    have hcount := h.1
    simp [List.take_of_length_le, hcount]
  | cons t ts ih =>
    rw [CallbackQueue.enqueueAll, List.foldl_cons]
    refine (ih (CallbackQueue.enqueue_ok h t)).trans ?_
    rcases q.enqueue_cases t with ⟨hfull, he⟩ | ⟨hne, he⟩ <;> rw [he]
    · have hlen := CallbackQueue.tokens_length_of_full hfull
      rw [List.take_append_of_le_length hlen.ge, List.take_append_of_le_length hlen.ge]
    · rw [CallbackQueue.tokens_push h hne, List.append_assoc, List.singleton_append]

/-- No token raises no flag (43_callback_queue.md R231). -/
theorem CallbackQueue.overflow_zero {q : CallbackQueue} (h : q.Ok) : q.overflow 0 = 0 := if_neg (by have := h.1; omega)

/-- `F_CBQ_OVF` after one token and then `n` more is that after `n + 1` (43_callback_queue.md R231). -/
theorem enqueueFlags_overflow {q : CallbackQueue} (h : q.Ok) (t : Word) (n : Nat) (flags : BitVec 8) :
    enqueueFlags q flags ||| (q.enqueue t).overflow n = flags ||| q.overflow (n + 1) := by
  have hcount := h.1
  unfold CallbackQueue.overflow
  rcases q.enqueue_cases t with ⟨hfull, he⟩ | ⟨hne, he⟩
  · obtain ⟨-, hflags⟩ := (enqueueFlags_cases q flags).resolve_right fun h => h.1 hfull
    have h32 : q.count.toNat = 32 := by rw [hfull]; rfl
    rw [he, hflags, h32, if_pos (by omega : 32 < 32 + (n + 1))]
    split
    · rw [BitVec.or_assoc, BitVec.or_self]
    · exact BitVec.or_zero
  · obtain ⟨-, hflags⟩ := (enqueueFlags_cases q flags).resolve_left fun h => hne h.1
    have hsucc : (q.count + 1).toNat = q.count.toNat + 1 := by bv_omega
    rw [he, hflags, CallbackQueue.push_count, hsucc, Nat.add_right_comm, Nat.add_assoc]

/-! ### One voice's share (42_mixer.md R200, R208, R209) -/

/-- What a pass that finds `v` in a slot and leaves `w` there keeps of it (42_mixer.md R208, R210). -/
def Voice.MixedInto (v w : Voice) : Prop :=
  (w.active = true → v.active = true) ∧ (v.active = false → w = v) ∧
  (v.active = true → w.active = false → w.lcount = 0 ∧ w.pos = 0) ∧
  w.step = v.step ∧ w.volL = v.volL ∧ w.volR = v.volR ∧ w.gen = v.gen ∧ w.token = v.token ∧ w.prio = v.prio

/-- What one voice's share did to the accumulated effects: nothing but MEM and perhaps the cap's flag, or the
finalization (42_mixer.md R208, R209). -/
def Voice.Tallied (v w : Voice) (acc acc' : MixAcc) : Prop :=
  (w.active = v.active ∧ acc'.cbq = acc.cbq ∧ acc'.done = acc.done ∧
    (acc'.flags = acc.flags ∨ acc'.flags = acc.flags ||| 0x40 ∧ w.active = true ∧ w.pos = 0)) ∨
  (v.active = true ∧ w.active = false ∧ acc'.cbq = acc.cbq.enqueue v.token ∧
    acc'.flags = enqueueFlags acc.cbq acc.flags ∧ acc'.done = acc.done + 1)

/-- The fields that frames and refills leave alone (42_mixer.md R206, R208, R210). -/
def Voice.SameSound (v w : Voice) : Prop :=
  w.active = v.active ∧ w.step = v.step ∧ w.volL = v.volL ∧ w.volR = v.volR ∧ w.gen = v.gen ∧ w.token = v.token ∧
    w.prio = v.prio

/-- A voice's frames and refills keep its sound (42_mixer.md R210). -/
theorem State.mixFrames_sameSound (s : State) (g : Nat × Nat) (n a left : Nat) (v : Voice) (m : Memory) :
    v.SameSound (s.mixFrames g n a left v m).1 :=
  s.mixFrames_induct g v.SameSound (fun _ _ h => h) (fun _ _ h => h)
    (fun w m h => by rw [Voice.refill_frame]; exact h) n a left v m ⟨rfl, rfl, rfl, rfl, rfl, rfl, rfl⟩

/-- A voice that stays active is mixed into one with the same sound. -/
theorem Voice.SameSound.mixedInto {v w : Voice} (h : v.SameSound w) (hactive : v.active = true) : v.MixedInto w := by
  obtain ⟨ha, hkept⟩ := h
  exact ⟨fun _ => hactive, fun hidle => by simp [hactive] at hidle,
    fun _ hended => by simp [ha, hactive] at hended, hkept⟩

/-- One voice's share of a pass: what becomes of the voice, and what is tallied (42_mixer.md R200). -/
theorem State.mixVoice_tallied (s : State) (buf : Nat) {v : Voice} (hv : v.Sound) (acc : MixAcc) :
    v.MixedInto (s.mixVoice buf v acc).1 ∧ v.Tallied (s.mixVoice buf v acc).1 acc (s.mixVoice buf v acc).2 := by
  have hsame := s.mixFrames_sameSound (s.gains v) s.cfg.nf buf refillCap v acc.mem
  have hend (hpart : v.takesPart = true) :=
    s.mixFrames_end (s.gains v) s.cfg.nf buf refillCap v acc.mem (hv.playable hpart).2.1 (hv.playable hpart).2.2
  rcases s.mixVoice_cases buf v acc with ⟨-, h⟩ | ⟨hpart, v', m, hm, h⟩ | ⟨hpart, v', m, hm, h⟩ | ⟨hpart, v', m, hm, h⟩
    <;> rw [h]
  case inl =>
    exact ⟨⟨id, fun _ => rfl, fun ha hi => by simp [ha] at hi, rfl, rfl, rfl, rfl, rfl, rfl⟩,
      .inl ⟨rfl, rfl, rfl, .inl rfl⟩⟩
  all_goals
    have hactive : v.active = true := (Bool.and_eq_true_iff.1 hpart).1
    replace hend := hend hpart
    rw [hm] at hsame hend
  case inr.inl => exact ⟨hsame.mixedInto hactive, .inl ⟨hsame.1, rfl, rfl, .inl rfl⟩⟩
  case inr.inr.inl =>
    obtain ⟨hplays, -⟩ | ⟨hended, -⟩ | ⟨-, -, hpos⟩ := hend
    · cases hplays
    · cases hended
    · exact ⟨hsame.mixedInto hactive, .inl ⟨hsame.1, rfl, rfl, .inr ⟨rfl, hsame.1.trans hactive, hpos⟩⟩⟩
  case inr.inr.inr =>
    obtain ⟨hplays, -⟩ | ⟨-, hcount, hpos⟩ | ⟨hcapped, -⟩ := hend
    · cases hplays
    · obtain ⟨-, hstep, hvolL, hvolR, hgen, htoken, hprio⟩ := hsame
      exact ⟨⟨fun _ => hactive, fun hidle => by simp [hactive] at hidle, fun _ _ => ⟨hcount, hpos⟩, hstep, hvolL, hvolR,
        hgen, htoken, hprio⟩, .inr ⟨hactive, rfl, congrArg acc.cbq.enqueue htoken, rfl, rfl⟩⟩
    · cases hcapped

/-! ### The whole pass (42_mixer.md R200, R203) -/

/-- The tokens of the voices that were active before a pass and not after it, in slot order (42_mixer.md R208). -/
abbrev endedTokens (vs ws : List Voice) : List Word :=
  ((vs.zip ws).filter fun p => p.1.active && !p.2.active).map fun p => p.1.token

/-- What a pass that finds `vs` in the slots and leaves `ws` there adds to the accumulated effects. -/
structure PassTally (vs ws : List Voice) (acc acc' : MixAcc) : Prop where
  cbq    : acc'.cbq = acc.cbq.enqueueAll (endedTokens vs ws)
  done   : acc'.done = acc.done + (endedTokens vs ws).length
  active : (endedTokens vs ws).length + ws.countP (·.active) = vs.countP (·.active)
  flags  : ∃ cap : BitVec 8, acc'.flags = acc.flags ||| acc.cbq.overflow (endedTokens vs ws).length ||| cap ∧
    (cap = 0 ∨ (cap = 0x40 ∧ ∃ w ∈ ws, w.active = true ∧ w.pos = 0))

/-- A voice that was not finalized adds no token. -/
theorem endedTokens_cons_kept {v w : Voice} (h : w.active = v.active) (vs ws : List Voice) :
    endedTokens (v :: vs) (w :: ws) = endedTokens vs ws := by
  simp [endedTokens, h]

/-- The token of a finalized voice stands before those of the later slots. -/
theorem endedTokens_cons_ended {v w : Voice} (hv : v.active = true) (hw : w.active = false) (vs ws : List Voice) :
    endedTokens (v :: vs) (w :: ws) = v.token :: endedTokens vs ws := by
  simp [endedTokens, hv, hw]

/-- The tally of the first voice and that of the rest make the tally of the pass (42_mixer.md R203). -/
theorem PassTally.cons {v w : Voice} {vs ws : List Voice} {acc acc' acc'' : MixAcc} (hq : acc.cbq.Ok)
    (h : v.Tallied w acc acc') (hrest : PassTally vs ws acc' acc'') : PassTally (v :: vs) (w :: ws) acc acc'' := by
  obtain ⟨hcbq', hdone', hactive', cap, hflags', hcap⟩ := hrest
  have hcap' : cap = 0 ∨ (cap = 0x40 ∧ ∃ u ∈ w :: ws, u.active = true ∧ u.pos = 0) :=
    hcap.imp_right fun ⟨h40, u, hu, hrest⟩ => ⟨h40, u, List.mem_cons_of_mem w hu, hrest⟩
  rcases h with ⟨hsame, hcbq, hdone, hflags⟩ | ⟨hv, hw, hcbq, hflags, hdone⟩
  · rw [hcbq] at hcbq' hflags'
    constructor <;> rw [endedTokens_cons_kept hsame]
    case cbq => exact hcbq'
    case done => rw [hdone', hdone]
    case active => rw [List.countP_cons, List.countP_cons, hsame, ← hactive', Nat.add_assoc]
    case flags =>
      rcases hflags with hflags | ⟨hflags, hcapped⟩
      · exact ⟨cap, by rw [hflags', hflags], hcap'⟩
      · refine ⟨0x40, ?_, .inr ⟨rfl, w, List.mem_cons_self, hcapped⟩⟩
        have hmark : 0x40 ||| cap = 0x40 := by rcases hcap with rfl | ⟨rfl, -⟩ <;> rfl
        rw [hflags', hflags, BitVec.or_assoc acc.flags, BitVec.or_comm 0x40, ← BitVec.or_assoc, BitVec.or_assoc _ 0x40,
          hmark]
  · rw [hcbq] at hcbq' hflags'
    constructor <;> rw [endedTokens_cons_ended hv hw]
    case cbq => exact hcbq'
    case done => rw [hdone', hdone, List.length_cons, Nat.add_right_comm, Nat.add_assoc]
    case active =>
      rw [List.countP_cons_of_neg (by simp [hw]), List.countP_cons_of_pos hv, List.length_cons, ← hactive',
        Nat.add_right_comm]
    case flags =>
      exact ⟨cap, by rw [hflags', hflags, enqueueFlags_overflow hq, List.length_cons], hcap'⟩

/-- The tally of a whole pass over sound voices (42_mixer.md R200, R203). -/
theorem State.mixVoices_tally (s : State) {buf : Nat} : ∀ (vs : List Voice) (acc : MixAcc), (∀ v ∈ vs, v.Sound) →
    acc.cbq.Ok → PassTally vs (s.mixVoices buf vs acc).1 acc (s.mixVoices buf vs acc).2
  | [], acc, _, hq => ⟨rfl, rfl, rfl, 0, by simp [State.mixVoices, CallbackQueue.overflow_zero hq], .inl rfl⟩
  | v :: vs, acc, hv, hq => by
    rw [State.mixVoices_cons]
    obtain ⟨-, htally⟩ := s.mixVoice_tallied buf (hv v List.mem_cons_self) acc
    have hq' : (s.mixVoice buf v acc).2.cbq.Ok := by
      rcases htally with ⟨-, hcbq, -⟩ | ⟨-, -, hcbq, -⟩ <;> rw [hcbq]
      · exact hq
      · exact CallbackQueue.enqueue_ok hq _
    exact .cons hq htally (State.mixVoices_tally s vs _ (fun w hw => hv w (List.mem_cons_of_mem v hw)) hq')

/-- Settles O38: the tally of the pass from an empty one, slot by slot what `MIX` keeps, and MEM outside the buffer. -/
theorem mixCompletes : Obligations.MixCompletes := by
  intro s hs halign hfits
  obtain ⟨-, hsound⟩ := s.inv_iff.1 hs
  generalize hpass : s.mixVoices (s.x.get 0).toNat s.voices ⟨s.mixBed (s.x.get 0).toNat, s.cbq, s.errflags, 0⟩ = pass
  obtain ⟨ws, acc⟩ := pass
  have htally := s.mixVoices_tally (buf := (s.x.get 0).toNat) s.voices
    ⟨s.mixBed (s.x.get 0).toNat, s.cbq, s.errflags, 0⟩ hsound.voices hs.queue
  have hslots := s.mixVoices_forall₂ (s.x.get 0).toNat Voice.MixedInto s.voices
    ⟨s.mixBed (s.x.get 0).toNat, s.cbq, s.errflags, 0⟩ fun v hv acc => (s.mixVoice_tallied _ (hsound.voices v hv) acc).1
  have hmem := s.mixVoices_sameOutside (s.x.get 0).toNat s.voices s.cbq s.errflags 0
  have hlen := s.mixVoices_length (s.x.get 0).toNat s.voices ⟨s.mixBed (s.x.get 0).toNat, s.cbq, s.errflags, 0⟩
  simp only [hpass] at htally hslots hmem hlen
  obtain ⟨hcbq, hdone, hactive, cap, hflags, hcap⟩ := htally
  rw [Nat.zero_add] at hdone
  have hnv : (endedTokens s.voices ws).length ≤ 256 := by
    have := List.countP_le_length (p := (·.active)) (l := s.voices)
    obtain ⟨⟨-, hmax⟩, -⟩ := Config.ranges_of_wf hs.parameters
    have := hs.slots
    omega
  have hres : (BitVec.ofNat 32 acc.done).toNat = (endedTokens s.voices ws).length := by
    rw [hdone, BitVec.toNat_ofNat, Nat.mod_eq_of_lt (by omega)]
  refine ⟨ws, acc.mem, cap, BitVec.ofNat 32 acc.done, ?_, CallbackQueue.tokens_enqueueAll hs.queue _, hcap, hres, hlen,
    fun j v w => forall₂_getElem? hslots, ?_, hmem⟩
  · rw [exec_mix_of_pass halign hfits hpass, hcbq, hflags]
    rfl
  · rw [hres]
    exact hactive

end Sys2Proof.Machine

/-! ## The sink buffer after a mix (42_mixer.md R201 to R207) -/

namespace Sys2Proof.Machine

/-! ### The outputs of one voice added to MEM (42_mixer.md R205) -/

/-- MEM after the outputs `ys` of successive frames from address `a` on are added with the gains `g`
(42_mixer.md R200, R205). -/
def addOutputs (g : Nat × Nat) : Nat → List Int → Memory → Memory
  | _, [], m => m
  | a, y :: ys, m => addOutputs g (a + 4) ys (addOutput g a y m)

theorem addOutput_sameOutside (g : Nat × Nat) (a : Nat) (y : Int) (m : Memory) :
    m.SameOutside a (a + 4) (addOutput g a y m) := fun a' h => by
  rw [addOutput, accumulate_read_other _ _ (by omega), accumulate_read_other _ _ (by omega)]

theorem addOutput_wf (g : Nat × Nat) {a : Nat} (y : Int) {m : Memory} (hm : m.wf) (ha : a + 4 ≤ 2 ^ 32) :
    (addOutput g a y m).wf :=
  accumulate_wf (accumulate_wf hm (by omega) _) (by omega) _

/-- Bytes that are the same outside a range are the same outside a wider one. -/
theorem Memory.SameOutside.mono {lo hi lo' hi' : Nat} {m m' : Memory} (h : m.SameOutside lo hi m') (hlo : lo' ≤ lo)
    (hhi : hi ≤ hi') : m.SameOutside lo' hi' m' := fun a ha => h a (by omega)

/-- A word outside the range reads the same. -/
theorem Memory.SameOutside.read16_eq {lo hi a : Nat} {m m' : Memory} (h : m.SameOutside lo hi m')
    (ha : a + 2 ≤ lo ∨ hi ≤ a) : m'.read16 a = m.read16 a := by
  rw [Memory.read16, Memory.read16, h a (by omega), h (a + 1) (by omega)]

/-- Outputs are added inside their frames only (42_mixer.md R210). -/
theorem addOutputs_sameOutside (g : Nat × Nat) (ys : List Int) : ∀ (a : Nat) (m : Memory),
    m.SameOutside a (a + 4 * ys.length) (addOutputs g a ys m) := by
  induction ys with
  | nil => exact fun a m => .refl _ _ m
  | cons y ys ih =>
    intro a m
    rw [List.length_cons]
    exact ((addOutput_sameOutside g a y m).mono (by omega) (by omega)).trans ((ih _ _).mono (by omega) (by omega))

theorem addOutputs_wf (g : Nat × Nat) (ys : List Int) : ∀ {a : Nat} {m : Memory}, m.wf → a + 4 * ys.length ≤ 2 ^ 32 →
    (addOutputs g a ys m).wf := by
  induction ys with
  | nil => exact fun hm _ => hm
  | cons y ys ih =>
    intro a m hm ha
    rw [List.length_cons] at ha
    exact ih (addOutput_wf g y hm (by omega)) (by omega)

/-- Contributions in two parts are added one part after the other (42_mixer.md R203, R205). -/
theorem clampedSum_append (bed : Int) (cs ds : List Int) :
    clampedSum bed (cs ++ ds) = clampedSum (clampedSum bed cs) ds := List.foldl_append

/-- The words of frame `f` after one voice's outputs are added: its output of that frame, if it has one, times the gain
(42_mixer.md R205). -/
theorem addOutputs_read16 (g : Nat × Nat) (ys : List Int) : ∀ (a : Nat) (m : Memory) (f : Nat),
    ((addOutputs g a ys m).read16 (a + 4 * f)).toInt =
      clampedSum (m.read16 (a + 4 * f)).toInt (ys[f]?.map fun y => y * (g.1 : Int)).toList ∧
    ((addOutputs g a ys m).read16 (a + 4 * f + 2)).toInt =
      clampedSum (m.read16 (a + 4 * f + 2)).toInt (ys[f]?.map fun y => y * (g.2 : Int)).toList := by
  induction ys with
  | nil => exact fun a m f => ⟨rfl, rfl⟩
  | cons y ys ih =>
    intro a m f
    cases f with
    | zero =>
      have hrest := addOutputs_sameOutside g ys (a + 4) (addOutput g a y m)
      obtain ⟨hleft, hright⟩ := addOutput_read16 g a y m
      rw [Nat.mul_zero, Nat.add_zero, addOutputs, hrest.read16_eq (by omega), hrest.read16_eq (by omega)]
      exact ⟨hleft, hright⟩
    | succ f =>
      have hfirst := addOutput_sameOutside g a y m
      have hnext := ih (a + 4) (addOutput g a y m) f
      rw [show a + 4 + 4 * f = a + 4 * (f + 1) by omega, hfirst.read16_eq (by omega), hfirst.read16_eq
        (by omega)] at hnext
      exact hnext

/-! ### The outputs of several voices (42_mixer.md R203) -/

/-- MEM after the outputs of several voices are added, one voice after the other (42_mixer.md R203). -/
def State.addVoices (s : State) (buf : Nat) (outputs : List (Voice × List Int)) (m : Memory) : Memory :=
  outputs.foldl (fun m o => addOutputs (s.gains o.1) buf o.2 m) m

theorem State.addVoices_cons (s : State) (buf : Nat) (o : Voice × List Int) (os : List (Voice × List Int))
    (m : Memory) :
    s.addVoices buf (o :: os) m = s.addVoices buf os (addOutputs (s.gains o.1) buf o.2 m) := rfl

/-- What the voices of `outputs` contribute to one channel of frame `f`, in slot order (42_mixer.md R203, R205). -/
def contributions (outputs : List (Voice × List Int)) (f : Nat) (g : Voice → Int) : List Int :=
  outputs.filterMap fun o => o.2[f]?.map fun y => y * g o.1

/-- The first voice's contribution stands before those of the others (42_mixer.md R203). -/
theorem contributions_cons (o : Voice × List Int) (os : List (Voice × List Int)) (f : Nat) (g : Voice → Int) :
    contributions (o :: os) f g = (o.2[f]?.map fun y => y * g o.1).toList ++ contributions os f g := by
  rw [contributions, List.filterMap_cons]
  split <;> rename_i h <;> rw [h] <;> rfl

/-- The words of frame `f` after the outputs of several voices are added (42_mixer.md R203, R205). -/
theorem State.addVoices_read16 (s : State) (buf f : Nat) (outputs : List (Voice × List Int)) : ∀ m : Memory,
    ((s.addVoices buf outputs m).read16 (buf + 4 * f)).toInt =
      clampedSum (m.read16 (buf + 4 * f)).toInt (contributions outputs f fun v => ((s.gains v).1 : Int)) ∧
    ((s.addVoices buf outputs m).read16 (buf + 4 * f + 2)).toInt =
      clampedSum (m.read16 (buf + 4 * f + 2)).toInt (contributions outputs f fun v => ((s.gains v).2 : Int)) := by
  induction outputs with
  | nil => exact fun m => ⟨rfl, rfl⟩
  | cons o os ih =>
    intro m
    obtain ⟨hleft, hright⟩ := addOutputs_read16 (s.gains o.1) o.2 buf m f
    obtain ⟨hleft', hright'⟩ := ih (addOutputs (s.gains o.1) buf o.2 m)
    rw [State.addVoices_cons, hleft', hright', hleft, hright, contributions_cons, contributions_cons, clampedSum_append,
      clampedSum_append]
    exact ⟨rfl, rfl⟩

/-- Outputs of at most `NF` frames are added inside the buffer only, and keep the memory's form (42_mixer.md R210). -/
theorem State.addVoices_frame (s : State) {buf : Nat} (hfits : buf + 4 * s.cfg.nf ≤ 2 ^ 32)
    {outputs : List (Voice × List Int)} (hlen : ∀ o ∈ outputs, o.2.length ≤ s.cfg.nf) {m : Memory} (hm : m.wf) :
    (s.addVoices buf outputs m).wf ∧ m.SameOutside buf (buf + 4 * s.cfg.nf) (s.addVoices buf outputs m) := by
  induction outputs generalizing m with
  | nil => exact ⟨hm, .refl _ _ m⟩
  | cons o os ih =>
    have ho := hlen o List.mem_cons_self
    have hfirst := addOutputs_sameOutside (s.gains o.1) o.2 buf m
    obtain ⟨hwf, hrest⟩ := ih (fun p hp => hlen p (List.mem_cons_of_mem o hp))
      (addOutputs_wf (s.gains o.1) o.2 (a := buf) hm (by omega))
    exact ⟨hwf, (hfirst.mono (le_refl _) (by omega)).trans hrest⟩

/-- The gains of a voice, in the words of `State.SinkHolds` (42_mixer.md R202). -/
theorem State.gains_eq (s : State) (v : Voice) :
    s.gains v = (if s.revStereo then gain v.volR s.masterVol else gain v.volL s.masterVol,
      if s.revStereo then gain v.volL s.masterVol else gain v.volR s.masterVol) := by
  unfold State.gains
  split <;> rfl

/-- The bed with the outputs of the voices added to it is the sink that `State.SinkHolds` describes
(42_mixer.md R201 to R205, R210). -/
theorem State.sinkHolds_addVoices {s : State} (hm : s.mem.wf) (hfits : (s.x.get 0).toNat + 4 * s.cfg.nf ≤ 2 ^ 32)
    {outputs : List (Voice × List Int)} (hlen : ∀ o ∈ outputs, o.2.length ≤ s.cfg.nf) :
    s.SinkHolds (s.addVoices (s.x.get 0).toNat outputs (s.mixBed (s.x.get 0).toNat)) outputs := by
  obtain ⟨hwf, hout⟩ := s.addVoices_frame hfits hlen (s.mixBed_wf hm hfits)
  refine ⟨hwf, fun f hf => ?_, fun a ha => (hout a ha).trans (s.mixBed_read_other ha)⟩
  obtain ⟨hleft, hright⟩ := s.addVoices_read16 (s.x.get 0).toNat f outputs (s.mixBed (s.x.get 0).toNat)
  rw [hleft, hright, s.mixBed_read16 (by omega) (by omega), s.mixBed_read16 (by omega) (by omega)]
  simp only [State.gains_eq]
  cases s.revStereo <;> simp [contributions, gain]

/-! ### Frames in a row (42_mixer.md R204, R206, R207) -/

/-- The coefficients of a filter that is on sum to at most 256 (40_voice_pool.md R149). -/
abbrev State.FilterOk (s : State) : Prop := s.lpfEn = true → s.alpha.toNat + s.beta.toNat ≤ 256

/-- What a sample `x` becomes before the gain (42_mixer.md R204, R207). -/
def State.filterOutput (s : State) (prev x : Int) : Int :=
  if s.lpfEn then ((s.beta.toNat : Int) * prev + s.alpha.toNat * x).tdiv 256 else x

/-- The filter memory after one sample `x` (42_mixer.md R207). -/
def State.filterStep (s : State) (prev : BitVec 8) (x : Int) : BitVec 8 :=
  if s.lpfEn then BitVec.ofInt 8 (((s.beta.toNat : Int) * prev.toInt + s.alpha.toNat * x).tdiv 256) else prev

theorem Voice.sample_bounds (v : Voice) : -128 ≤ v.sample ∧ v.sample ≤ 127 := toInt_byte_bounds _

/-- The stored filter memory is the output itself: eight bits hold it (42_mixer.md R207). -/
theorem State.filterStep_toInt {s : State} (hfilter : s.FilterOk) (hon : s.lpfEn = true) (prev : BitVec 8) {x : Int}
    (hx : -128 ≤ x ∧ x ≤ 127) : (s.filterStep prev x).toInt = s.filterOutput prev.toInt x := by
  obtain ⟨hlow, hhigh⟩ := lowPass_bounds (hfilter hon) (toInt_byte_bounds prev) hx
  rw [State.filterStep, State.filterOutput, if_pos hon, if_pos hon]
  exact BitVec.toInt_ofInt_eq_self (by decide) hlow (by omega)

/-- Without the filter a voice's outputs are its samples (42_mixer.md R204). -/
theorem State.heard_of_off {s : State} (hoff : s.lpfEn = false) : ∀ (prev : Int) (xs : List Int), s.heard prev xs = xs
  | _, [] => rfl
  | _, x :: xs => by simp [State.heard, hoff, State.heard_of_off hoff]

/-- The first output, and the others from the filter memory it leaves (42_mixer.md R207). -/
theorem State.heard_cons {s : State} (hfilter : s.FilterOk) (prev : BitVec 8) {x : Int} (hx : -128 ≤ x ∧ x ≤ 127)
    (xs : List Int) :
    s.heard prev.toInt (x :: xs) = s.filterOutput prev.toInt x :: s.heard (s.filterStep prev x).toInt xs := by
  cases hon : s.lpfEn with
  | false => rw [State.heard_of_off hon, State.heard_of_off hon, State.filterOutput, hon]; rfl
  | true => rw [State.filterStep_toInt hfilter hon prev hx]; rfl

/-- The filter memory after several outputs is that after the others, from what the first left (42_mixer.md R207). -/
theorem State.filterMemory_cons {s : State} (hfilter : s.FilterOk) (prev : BitVec 8) {x : Int}
    (hx : -128 ≤ x ∧ x ≤ 127) (ys : List Int) :
    s.filterMemory prev (s.filterOutput prev.toInt x :: ys) = s.filterMemory (s.filterStep prev x) ys := by
  cases hon : s.lpfEn with
  | false => simp [State.filterMemory, State.filterStep, hon]
  | true =>
    rw [State.filterMemory, State.filterMemory, if_pos hon, if_pos hon, State.filterStep_toInt hfilter hon prev hx,
      List.getLastD_cons]

/-- With no output the filter memory stays (42_mixer.md R207). -/
theorem State.filterMemory_nil (s : State) (prev : BitVec 8) : s.filterMemory prev [] = prev := by
  unfold State.filterMemory
  split
  · exact BitVec.ofInt_toInt
  · rfl

/-- The voice with another filter memory. -/
abbrev Voice.withFilter (v : Voice) (p : BitVec 8) : Voice := { v with lpPrev := p }

/-- The voice at another position. -/
abbrev Voice.movedTo (v : Voice) (p : Nat) : Voice := { v with pos := BitVec.ofNat 32 p }

/-- One frame moves the voice on by its step and runs the filter (42_mixer.md R206, R207). -/
theorem State.mixFrameVoice_eq (s : State) (v : Voice) :
    s.mixFrameVoice v = (v.movedTo (v.pos.toNat + v.step.toNat)).withFilter (s.filterStep v.lpPrev v.sample) := rfl

/-- A voice that has reached a position moves on by its step from there (42_mixer.md R206). -/
theorem Voice.movedTo_advance (v : Voice) (p : Nat) :
    (v.movedTo p).movedTo ((v.movedTo p).pos.toNat + v.step.toNat) = v.movedTo (p + v.step.toNat) := by
  have hpos : BitVec.ofNat 32 (p % 2 ^ 32 + v.step.toNat) = BitVec.ofNat 32 (p + v.step.toNat) :=
    BitVec.eq_of_toNat_eq (by simp)
  simp only [Voice.movedTo, BitVec.toNat_ofNat, hpos]

/-- The integer part of the position a voice was moved to (00_scope.md R13). -/
theorem Voice.movedTo_posIndex (v : Voice) {p : Nat} (hp : p < 2 ^ 32) : (v.movedTo p).posIndex = p / 65536 := by
  rw [Voice.posIndex, BitVec.toNat_ofNat, Nat.mod_eq_of_lt hp]

/-- How a pass goes on after the exhaustion check of a frame (42_mixer.md R208, R209): with the next frame, or not at
all. -/
def State.resume (s : State) (g : Nat × Nat) (n a : Nat) (m : Memory) :
    Voice × Nat × FrameEnd → Voice × Memory × FrameEnd
  | (v, left, .playing) => s.mixFrames g n a left v m
  | (v, _, .ended)      => (v, m, .ended)
  | (v, _, .capped)     => (v, m, .capped)

/-- The first frame of a pass and what follows it (42_mixer.md R200). -/
theorem State.mixFrames_succ (s : State) (g : Nat × Nat) (n a left : Nat) (v : Voice) (m : Memory) :
    s.mixFrames g (n + 1) a left v m =
      s.resume g n (a + 4) (addOutput g a (s.mixSample v) m)
        (exhaust s.cfg (addOutput g a (s.mixSample v) m) left (s.mixFrameVoice v)) := by
  rw [State.mixFrames, ← s.mixFrameMem_eq_addOutput]
  obtain ⟨v', left', _ | _ | _⟩ := exhaust s.cfg (s.mixFrameMem g a v m) left (s.mixFrameVoice v) <;> rfl

/-- Before frame `f` of the first `n` frames the voice is `u f`, the filter memory aside, with `left f` refills to go:
each of them leaves it playing, whatever MEM holds between `lo` and `hi` (42_mixer.md R206, R208). -/
def State.PlaysOn (s : State) (m : Memory) (lo hi n : Nat) (u : Nat → Voice) (left : Nat → Nat) : Prop :=
  ∀ f, f < n → ∀ (p : BitVec 8) (m' : Memory), m.SameOutside lo hi m' →
    exhaust s.cfg m' (left f) (((u f).movedTo ((u f).pos.toNat + (u f).step.toNat)).withFilter p) =
      ((u (f + 1)).withFilter p, left (f + 1), .playing)

/-- The samples of the first `n` frames (42_mixer.md R204). -/
abbrev frameSamples (u : Nat → Voice) (n : Nat) : List Int := (List.range n).map fun f => (u f).sample

/-- The first frame's sample and those of the frames after it. -/
theorem frameSamples_succ (u : Nat → Voice) (n : Nat) :
    frameSamples u (n + 1) = (u 0).sample :: frameSamples (fun f => u (f + 1)) n := by
  simp [frameSamples, List.range_succ_eq_map, Function.comp_def]

/-- `n` frames that leave the voice playing and one more, up to its exhaustion check: the outputs are added, and the
voice holds the filter memory they leave (42_mixer.md R200, R204 to R207). -/
theorem State.mixFrames_of_playsOn {s : State} (hfilter : s.FilterOk) {m₀ : Memory} {lo hi : Nat} (g : Nat × Nat)
    (r : Nat)
    {n : Nat} {u : Nat → Voice} {left : Nat → Nat} (hplays : s.PlaysOn m₀ lo hi n u left) {a : Nat} (hlo : lo ≤ a)
    (hhi : a + 4 * (n + 1) ≤ hi) (p : BitVec 8) {m : Memory} (hm : m₀.SameOutside lo hi m) :
    let ys := s.heard p.toInt (frameSamples u (n + 1))
    s.mixFrames g (n + 1 + r) a (left 0) ((u 0).withFilter p) m =
      s.resume g r (a + 4 * (n + 1)) (addOutputs g a ys m)
        (exhaust s.cfg (addOutputs g a ys m) (left n)
          (((u n).movedTo ((u n).pos.toNat + (u n).step.toNat)).withFilter (s.filterMemory p ys))) := by
  induction n generalizing u left a p m with
  | zero =>
    intro ys
    have hys : ys = [s.filterOutput p.toInt (u 0).sample] := s.heard_cons hfilter p (u 0).sample_bounds []
    have hmem : s.filterMemory p ys = s.filterStep p (u 0).sample := by
      rw [hys, s.filterMemory_cons hfilter p (u 0).sample_bounds, s.filterMemory_nil]
    rw [Nat.add_comm (0 + 1) r, State.mixFrames_succ, hmem, hys]
    rfl
  | succ n ih =>
    intro ys
    have hrest : s.PlaysOn m₀ lo hi n (fun f => u (f + 1)) (fun f => left (f + 1)) := fun f hf => hplays (f + 1)
      (by omega)
    have hys : ys = s.filterOutput p.toInt (u 0).sample ::
        s.heard (s.filterStep p (u 0).sample).toInt (frameSamples (fun f => u (f + 1)) (n + 1)) := by
      rw [← s.heard_cons hfilter p (u 0).sample_bounds, ← frameSamples_succ]
    have hm' := hm.trans ((addOutput_sameOutside g a (s.filterOutput p.toInt (u 0).sample) m).mono hlo (by omega))
    have hfirst := hplays 0 (by omega) (s.filterStep p (u 0).sample) _ hm'
    have hnext := ih hrest (a := a + 4) (by omega) (by omega) (s.filterStep p (u 0).sample) hm'
    rw [hys, s.filterMemory_cons hfilter p (u 0).sample_bounds, Nat.add_right_comm (n + 1), State.mixFrames_succ,
      State.mixFrameVoice_eq]
    rw [show a + 4 + 4 * (n + 1) = a + 4 * (n + 1 + 1) by omega] at hnext
    exact (congrArg (s.resume g (n + 1 + r) (a + 4) _) hfirst).trans hnext

/-- `n` frames that leave the voice playing (42_mixer.md R200, R204 to R207). -/
theorem State.mixFrames_of_playsOn_all {s : State} (hfilter : s.FilterOk) {m₀ : Memory} {lo hi : Nat} (g : Nat × Nat)
    {n : Nat} {u : Nat → Voice} {left : Nat → Nat} (hplays : s.PlaysOn m₀ lo hi n u left) {a : Nat} (hlo : lo ≤ a)
    (hhi : a + 4 * n ≤ hi) (p : BitVec 8) {m : Memory} (hm : m₀.SameOutside lo hi m) :
    let ys := s.heard p.toInt (frameSamples u n)
    s.mixFrames g n a (left 0) ((u 0).withFilter p) m =
      ((u n).withFilter (s.filterMemory p ys), addOutputs g a ys m, .playing) := by
  cases n with
  | zero =>
    intro ys
    have hys : s.filterMemory p ys = p := s.filterMemory_nil p
    rw [hys]
    rfl
  | succ n =>
    intro ys
    have hlast := hplays n (by omega) (s.filterMemory p ys) (addOutputs g a ys m)
      (hm.trans ((addOutputs_sameOutside g ys a m).mono hlo (by simpa [ys, frameSamples] using hhi)))
    rw [← Nat.add_zero (n + 1), State.mixFrames_of_playsOn hfilter g 0 (fun f hf => hplays f
      (by omega)) hlo hhi p hm, hlast]
    rfl

/-! ### Voices that do not run out (42_mixer.md R203 to R207) -/

/-- The outputs of a voice whose buffered samples last for the pass (42_mixer.md R204, R207). -/
def State.output (s : State) (v : Voice) : List Int :=
  s.heard v.lpPrev.toInt ((List.range s.cfg.nf).map fun f => (v.lbuf.getD (v.positionAt f / 2 ^ 16) 0).toInt)

/-- A voice after a pass in which it did not run out (42_mixer.md R206, R207). -/
def State.sounded (s : State) (v : Voice) : Voice :=
  { v with pos := BitVec.ofNat 32 (v.positionAt s.cfg.nf), lpPrev := s.filterMemory v.lpPrev (s.output v) }

/-- Positions rise from frame to frame by the step (42_mixer.md R206). -/
theorem Voice.positionAt_succ (v : Voice) (f : Nat) : v.positionAt (f + 1) = v.positionAt f + v.step.toNat := by
  rw [Voice.positionAt, Voice.positionAt, Nat.succ_mul, Nat.add_assoc]

theorem Voice.positionAt_mono (v : Voice) {f f' : Nat} (h : f ≤ f') : v.positionAt f ≤ v.positionAt f' :=
  Nat.add_le_add_left (Nat.mul_le_mul_right _ h) _

/-- A voice is at its own position. -/
theorem Voice.movedTo_positionAt_zero (v : Voice) : v.movedTo (v.positionAt 0) = v := by
  have hpos : BitVec.ofNat 32 (v.positionAt 0) = v.pos := by simp [Voice.positionAt]
  rw [Voice.movedTo, hpos]

/-- A voice whose buffered samples last for `n` frames plays on in each of them (42_mixer.md R208). -/
theorem Voice.playsOn {v : Voice} {n : Nat} (h : v.positionAt n < v.lcount.toNat * 2 ^ 16) (s : State) (m : Memory)
    (lo hi left : Nat) : s.PlaysOn m lo hi n (fun f => v.movedTo (v.positionAt f)) fun _ => left := by
  intro f hf p m' _
  have hnext : v.positionAt (f + 1) ≤ v.positionAt n := v.positionAt_mono hf
  have hcount := v.lcount.isLt
  rw [Voice.movedTo_advance, ← Voice.positionAt_succ]
  refine exhaust_inside _ _ _ _ ?_
  have hindex := v.movedTo_posIndex (p := v.positionAt (f + 1)) (by omega)
  have hinside : v.positionAt (f + 1) < 65536 * v.lcount.toNat := by omega
  exact hindex.trans_lt (Nat.div_lt_of_lt_mul hinside)

/-- The share of a voice that does not run out: it moves on, and its outputs are added (42_mixer.md R203 to R207). -/
theorem State.mixVoice_of_lasts {s : State} (hfilter : s.FilterOk) (buf : Nat) {v : Voice} (hpart : v.takesPart = true)
    (h : v.positionAt s.cfg.nf < v.lcount.toNat * 2 ^ 16) (acc : MixAcc) :
    s.mixVoice buf v acc = (s.sounded v, { acc with mem := addOutputs (s.gains v) buf (s.output v) acc.mem }) := by
  have hsamples : frameSamples (fun f => v.movedTo (v.positionAt f)) s.cfg.nf =
      (List.range s.cfg.nf).map fun f => (v.lbuf.getD (v.positionAt f / 2 ^ 16) 0).toInt := by
    refine List.map_congr_left fun f hf => ?_
    have hle := v.positionAt_mono (List.mem_range.1 hf).le
    have hcount := v.lcount.isLt
    rw [Voice.sample, Voice.movedTo_posIndex _ (by omega)]
    rfl
  have hframes := State.mixFrames_of_playsOn_all hfilter (s.gains v)
    (v.playsOn h s acc.mem buf (buf + 4 * s.cfg.nf) refillCap) (le_refl buf) (le_refl _) v.lpPrev (.refl _ _ acc.mem)
  rw [hsamples, v.movedTo_positionAt_zero] at hframes
  unfold State.mixVoice
  rw [if_pos hpart, hframes]
  rfl

/-- A pass in which no voice runs out (42_mixer.md R203 to R207). -/
theorem State.mixVoices_of_lasts {s : State} (hfilter : s.FilterOk) (buf : Nat) : ∀ (vs : List Voice) (acc : MixAcc),
    (∀ v ∈ vs, v.takesPart = true → v.positionAt s.cfg.nf < v.lcount.toNat * 2 ^ 16) →
    s.mixVoices buf vs acc = (vs.map fun v => if v.takesPart then s.sounded v else v,
      { acc with mem := s.addVoices buf ((vs.filter Voice.takesPart).map fun v => (v, s.output v)) acc.mem })
  | [], _, _ => rfl
  | v :: vs, acc, h => by
    have hrest := fun acc' => State.mixVoices_of_lasts hfilter buf vs acc' fun w hw => h w (List.mem_cons_of_mem v hw)
    rw [State.mixVoices_cons, List.map_cons]
    cases hpart : v.takesPart with
    | false =>
      rw [s.mixVoice_of_not_takesPart buf hpart, hrest, List.filter_cons_of_neg (by simp [hpart])]
      rfl
    | true =>
      rw [s.mixVoice_of_lasts hfilter buf hpart (h v List.mem_cons_self hpart), hrest, List.filter_cons_of_pos hpart]
      rfl

/-- Settles O40: every voice's share is its outputs added to MEM, and the sink is what they add to the bed. -/
theorem mixAddsVoicesInSlotOrder : Obligations.MixAddsVoicesInSlotOrder := by
  intro s hwf hfilter halign hfits sounds hlasts output
  have hsounds : sounds = Voice.takesPart := funext fun v => Bool.eq_iff_iff.2 (by simp [sounds, Voice.takesPart])
  rw [hsounds] at hlasts ⊢
  have hpass := s.mixVoices_of_lasts hfilter (s.x.get 0).toNat s.voices
    ⟨s.mixBed (s.x.get 0).toNat, s.cbq, s.errflags, 0⟩ hlasts
  refine ⟨_, exec_mix_of_pass halign hfits hpass, State.sinkHolds_addVoices hwf hfits fun o ho => ?_⟩
  obtain ⟨v, -, rfl⟩ := List.mem_map.1 ho
  simp [State.output]

end Sys2Proof.Machine

/-! ## A voice that runs out within a mix (42_mixer.md R206, R208, R209) -/

namespace Sys2Proof.Machine

/-! ### Refills of a voice whose source lies outside the sink (41_refill_adpcm.md R171, R172) -/

/-- A cursor not past the end has its bytes left before that end (log 7). -/
theorem toNat_add_sub_le_endAddress {cur e : BitVec 32} (h : cur.toNat ≤ endAddress e) :
    cur.toNat + (e - cur).toNat ≤ endAddress e := by
  by_cases he : e = 0
  · rw [endAddress, if_pos he, he]
    bv_omega
  · rw [endAddress, if_neg he] at *
    rw [BitVec.toNat_sub_of_le h]
    omega

/-- No source ends past the address space (20_memory.md R82). -/
theorem endAddress_le (e : BitVec 32) : endAddress e ≤ 2 ^ 32 := by
  unfold endAddress
  split <;> omega

/-- The source bytes left of a voice lie outside `[lo, hi)`. -/
def Voice.ReadsOutside (v : Voice) (lo hi : Nat) : Prop :=
  ∀ a, lo ≤ a → a < hi → a < v.srcCur.toNat ∨ v.srcCur.toNat + v.bytesLeft ≤ a

/-- The copying part leaves source bytes that were left before (41_refill_adpcm.md R171). -/
theorem Voice.ReadsOutside.fill {v : Voice} {lo hi : Nat} (h : v.ReadsOutside lo hi)
    (hend : v.srcCur.toNat + v.bytesLeft ≤ 2 ^ 32) (c : Config) (m : Memory) : (v.fill c m).ReadsOutside lo hi := by
  intro a hlo hhi
  have hle := v.fillBytes_le
  rw [v.fill_srcCur, v.fill_bytesLeft, BitVec.toNat_add, BitVec.toNat_ofNat]
  rcases h a hlo hhi with hbelow | habove <;> omega

/-- A playing voice whose source, the loop included, lies outside `[lo, hi)`. -/
structure Voice.StreamsOutside (v : Voice) (lo hi : Nat) : Prop where
  active   : v.active = true
  playable : v.Playable
  source   : v.ReadsOutside lo hi
  loop     : v.looping = true → ∀ a, lo ≤ a → a < hi → a < v.loopStart.toNat ∨ endAddress v.loopEnd ≤ a

/-- The source bytes left end inside the address space (20_memory.md R82). -/
theorem Voice.StreamsOutside.source_end {v : Voice} {lo hi : Nat} (h : v.StreamsOutside lo hi) :
    v.srcCur.toNat + v.bytesLeft ≤ 2 ^ 32 := by
  obtain ⟨-, -, hsource, -⟩ := h.playable
  obtain ⟨hcur, hloop⟩ := hsource h.active
  refine (toNat_add_sub_le_endAddress (e := v.effEnd) ?_).trans (endAddress_le _)
  unfold Voice.effEnd
  split
  · rename_i hl
    exact (hloop hl).2.2.2
  · exact hcur

/-- The rewound voice has the loop's bytes left, which lie outside the range (41_refill_adpcm.md R172). -/
theorem Voice.StreamsOutside.rewind {v : Voice} {lo hi : Nat} (h : v.StreamsOutside lo hi) (hloop : v.looping = true)
    (c : Config) :
    (v.rewind c).ReadsOutside lo hi ∧ (v.rewind c).srcCur.toNat + (v.rewind c).bytesLeft ≤ endAddress v.loopEnd := by
  obtain ⟨-, -, hsource, -⟩ := h.playable
  have hstart : v.loopStart.toNat ≤ endAddress v.loopEnd := ((hsource h.active).2 hloop).1.le
  have hbytes : (v.rewind c).bytesLeft = (v.loopEnd - v.loopStart).toNat := by
    simp [Voice.bytesLeft, Voice.effEnd, Voice.rewind, hloop]
  have hend : (v.rewind c).srcCur.toNat + (v.rewind c).bytesLeft ≤ endAddress v.loopEnd :=
    hbytes ▸ toNat_add_sub_le_endAddress hstart
  exact ⟨fun a hlo hhi => (h.loop hloop a hlo hhi).imp_right hend.trans, hend⟩

/-- A refill keeps the source outside the range (41_refill_adpcm.md R171, R172). -/
theorem Voice.StreamsOutside.refill {v : Voice} {lo hi : Nat} (h : v.StreamsOutside lo hi) (c : Config) (m : Memory) :
    (v.refill c m).StreamsOutside lo hi := by
  have hframe := v.refill_frame c m
  refine ⟨by rw [hframe]; exact h.active, h.playable.refill c m, ?_, by rw [hframe]; exact h.loop⟩
  rcases v.refill_cases c m with ⟨-, he⟩ | ⟨-, hloop, he⟩ | ⟨-, -, he⟩ <;> rw [he]
  · exact h.source.fill h.source_end c m
  · obtain ⟨hsource, hend⟩ := h.rewind hloop c
    exact hsource.fill (hend.trans (endAddress_le _)) c m
  · exact h.source

/-- A refill reads the same when MEM differs inside the range only (41_refill_adpcm.md R171). -/
theorem Voice.StreamsOutside.refill_eq {v : Voice} {lo hi : Nat} (h : v.StreamsOutside lo hi) {m m' : Memory}
    (hm : m.SameOutside lo hi m') (c : Config) : v.refill c m' = v.refill c m := by
  have hread {w : Voice} (hw : w.ReadsOutside lo hi) (k : Nat) (hk : k < w.bytesLeft) :
      m'.read (w.srcCur.toNat + k) = m.read (w.srcCur.toNat + k) := by
    refine hm _ ?_
    by_contra hin
    have := hw (w.srcCur.toNat + k) (by omega) (by omega)
    omega
  exact refillReadsOnlyItsSource c m' m v (hread h.source) fun hloop => hread (h.rewind hloop c).1

/-- Every refill in a row keeps the source outside the range (42_mixer.md R208). -/
theorem Voice.StreamsOutside.refilled {v : Voice} {lo hi : Nat} (h : v.StreamsOutside lo hi) (c : Config) (m : Memory) :
    ∀ k, (v.refilled c m k).StreamsOutside lo hi
  | 0 => h
  | k + 1 => (h.refilled c m k).refill c m

/-- Refills in a row keep the sound (42_mixer.md R210). -/
theorem Voice.refilled_sameSound (v : Voice) (c : Config) (m : Memory) : ∀ k, v.SameSound (v.refilled c m k)
  | 0 => ⟨rfl, rfl, rfl, rfl, rfl, rfl, rfl⟩
  | k + 1 => by
    rw [Voice.refilled, Voice.refill_frame]
    exact v.refilled_sameSound c m k

/-- A refill does not depend on the position and the filter memory, and keeps them (41_refill_adpcm.md R170). -/
theorem Voice.refill_movedTo_withFilter (v : Voice) (c : Config) (m : Memory) (pos : BitVec 32) (p : BitVec 8) :
    ({ v with pos := pos, lpPrev := p } : Voice).refill c m = { v.refill c m with pos := pos, lpPrev := p } := by
  have hfill (w : Voice) : ({ w with pos := pos, lpPrev := p } : Voice).fill c m =
      { w.fill c m with pos := pos, lpPrev := p } := by
    unfold Voice.fill
    split <;> rfl
  rcases v.refill_cases c m with ⟨hunits, he⟩ | ⟨hzero, hloop, he⟩ | ⟨hzero, hloop, he⟩ <;> rw [he]
  · exact (Voice.refill_of_unitsLeft (v := { v with pos := pos, lpPrev := p }) hunits c m).trans (hfill v)
  · exact (Voice.refill_of_loopEnd (v := { v with pos := pos, lpPrev := p }) hzero hloop c m).trans (hfill (v.rewind c))
  · exact Voice.refill_of_exhausted (v := { v with pos := pos, lpPrev := p }) hzero hloop c m

/-! ### The buffers of a voice in one row (42_mixer.md R206, R208) -/

/-- One more buffer adds its samples. -/
theorem Voice.samplesBefore_succ (v : Voice) (c : Config) (m : Memory) (i : Nat) :
    v.samplesBefore c m (i + 1) = v.samplesBefore c m i + (v.refilled c m i).lcount.toNat := by
  simp [Voice.samplesBefore, List.range_succ]

theorem Voice.samplesBefore_mono (v : Voice) (c : Config) (m : Memory) {i j : Nat} (h : i ≤ j) :
    v.samplesBefore c m i ≤ v.samplesBefore c m j := by
  induction h with
  | refl => exact le_refl _
  | step _ ih => rw [v.samplesBefore_succ]; omega

/-- One more buffer goes behind the others. -/
theorem Voice.stream_succ (v : Voice) (c : Config) (m : Memory) (k : Nat) :
    v.stream c m (k + 1) =
      v.stream c m k ++ (v.refilled c m (k + 1)).lbuf.take (v.refilled c m (k + 1)).lcount.toNat := by
  rw [Voice.stream, List.range_succ, List.flatMap_append, List.flatMap_singleton, Voice.stream]

/-- The row holds the samples of its buffers (10_state.md R38). -/
theorem Voice.StreamsOutside.stream_length {v : Voice} {lo hi : Nat} (h : v.StreamsOutside lo hi) (c : Config)
    (m : Memory)
    (k : Nat) : (v.stream c m k).length = v.samplesBefore c m (k + 1) := by
  have hbuffer (i : Nat) : ((v.refilled c m i).lbuf.take (v.refilled c m i).lcount.toNat).length =
      (v.refilled c m i).lcount.toNat := by
    obtain ⟨hlbuf, hmax, -⟩ := (h.refilled c m i).playable
    rw [List.length_take]
    omega
  induction k with
  | zero => simpa [Voice.stream, Voice.samplesBefore] using hbuffer 0
  | succ k ih => rw [v.stream_succ, List.length_append, ih, hbuffer, v.samplesBefore_succ c m (k + 1)]

/-- Sample `x` of the `i`-th buffer stands in the row behind those of the buffers before it. -/
theorem Voice.StreamsOutside.stream_getElem? {v : Voice} {lo hi : Nat} (h : v.StreamsOutside lo hi) (c : Config)
    (m : Memory) {i x : Nat} (hx : x < (v.refilled c m i).lcount.toNat) {k : Nat} (hi : i ≤ k) :
    (v.stream c m k)[v.samplesBefore c m i + x]? = (v.refilled c m i).lbuf[x]? := by
  induction hi with
  | refl =>
    cases i with
    | zero =>
      have hrow : v.stream c m 0 = (v.refilled c m 0).lbuf.take
        (v.refilled c m 0).lcount.toNat := by simp [Voice.stream]
      have hfirst : v.samplesBefore c m 0 = 0 := rfl
      rw [hrow, hfirst, Nat.zero_add, List.getElem?_take_of_lt hx]
    | succ i =>
      have hlen := h.stream_length c m i
      rw [v.stream_succ, List.getElem?_append_right (by omega), hlen, Nat.add_sub_cancel_left,
        List.getElem?_take_of_lt hx]
  | @step k hle ih =>
    have hin : v.samplesBefore c m i + x < (v.stream c m k).length := by
      have hmono := v.samplesBefore_mono c m (Nat.add_le_add_right hle 1)
      have hsucc := v.samplesBefore_succ c m i
      rw [h.stream_length]
      omega
    rw [v.stream_succ, List.getElem?_append_left hin, ih]

/-- The voice after `i` refills, at the position `p` counted from the first sample of the first buffer (42_mixer.md
R206, R208). -/
abbrev Voice.inBuffer (v : Voice) (c : Config) (m : Memory) (i p : Nat) : Voice :=
  (v.refilled c m i).movedTo (p - 2 ^ 16 * v.samplesBefore c m i)

/-- The position `p` lies in the `i`-th buffer of the row. -/
def Voice.InBuffer (v : Voice) (c : Config) (m : Memory) (i p : Nat) : Prop :=
  2 ^ 16 * v.samplesBefore c m i ≤ p ∧ p < 2 ^ 16 * v.samplesBefore c m (i + 1)

/-- The integer part of a position inside a buffer is inside its samples (42_mixer.md R208). -/
theorem Voice.StreamsOutside.inBuffer_posIndex {v : Voice} {lo hi : Nat} (h : v.StreamsOutside lo hi) (c : Config)
    (m : Memory) {i p : Nat} (hp : v.InBuffer c m i p) :
    (v.inBuffer c m i p).posIndex = p / 2 ^ 16 - v.samplesBefore c m i ∧
      v.samplesBefore c m i ≤ p / 2 ^ 16 ∧ (v.inBuffer c m i p).posIndex < (v.refilled c m i).lcount.toNat := by
  obtain ⟨hlow, hhigh⟩ := hp
  obtain ⟨-, hmax, -⟩ := (h.refilled c m i).playable
  rw [v.samplesBefore_succ] at hhigh
  rw [Voice.inBuffer, Voice.movedTo_posIndex _ (by omega)]
  omega

/-- The sample of a position inside a buffer is the one of that position in the row (42_mixer.md R204). -/
theorem Voice.StreamsOutside.inBuffer_sample {v : Voice} {lo hi : Nat} (h : v.StreamsOutside lo hi) (c : Config)
    (m : Memory) {i k p : Nat} (hi : i ≤ k) (hp : v.InBuffer c m i p) :
    (v.inBuffer c m i p).sample = ((v.stream c m k).getD (p / 2 ^ 16) 0).toInt := by
  obtain ⟨hindex, hlow, hinside⟩ := h.inBuffer_posIndex c m hp
  have hrow := h.stream_getElem? c m hinside hi
  rw [hindex, Nat.add_sub_cancel' hlow] at hrow
  rw [Voice.sample, List.getD_eq_getElem?_getD, List.getD_eq_getElem?_getD, hrow, hindex]

/-- The buffer, up to the `K`-th, that holds a position. -/
def Voice.bufferAt (v : Voice) (c : Config) (m : Memory) (K p : Nat) : Nat :=
  Nat.findGreatest (fun i => 2 ^ 16 * v.samplesBefore c m i ≤ p) K

theorem Voice.bufferAt_le (v : Voice) (c : Config) (m : Memory) (K p : Nat) : v.bufferAt c m K p ≤ K :=
  Nat.findGreatest_le K

theorem Voice.bufferAt_mono (v : Voice) (c : Config) (m : Memory) (K : Nat) {p p' : Nat} (h : p ≤ p') :
    v.bufferAt c m K p ≤ v.bufferAt c m K p' :=
  Nat.findGreatest_mono_left (fun _ hi => hi.trans h) K

/-- A position before the end of the `K`-th buffer lies in the buffer found for it. -/
theorem Voice.inBuffer_bufferAt {v : Voice} {c : Config} {m : Memory} {K p : Nat}
    (h : p < 2 ^ 16 * v.samplesBefore c m (K + 1)) : v.InBuffer c m (v.bufferAt c m K p) p := by
  have hfirst : 2 ^ 16 * v.samplesBefore c m 0 ≤ p := Nat.zero_le p
  refine ⟨Nat.findGreatest_spec (P := fun i => 2 ^ 16 * v.samplesBefore c m i ≤ p) (Nat.zero_le K) hfirst, ?_⟩
  by_cases hlast : v.bufferAt c m K p = K
  · rwa [hlast]
  · have hle := v.bufferAt_le c m K p
    have hnext : v.bufferAt c m K p + 1 ≤ K := by omega
    exact Nat.lt_of_not_le (Nat.findGreatest_is_greatest (P := fun i => 2 ^ 16 * v.samplesBefore c m i ≤ p)
      (Nat.lt_succ_self _) hnext)

/-- A position lies in one buffer only. -/
theorem Voice.bufferAt_eq {v : Voice} {c : Config} {m : Memory} {K i p : Nat} (hK : i ≤ K) (h : v.InBuffer c m i p) :
    v.bufferAt c m K p = i := by
  obtain ⟨hlow, hhigh⟩ := h
  refine Nat.findGreatest_eq_iff.2 ⟨hK, fun _ => hlow, fun j hj _ hle => ?_⟩
  have hmono : v.samplesBefore c m (i + 1) ≤ v.samplesBefore c m j := v.samplesBefore_mono c m hj
  omega

/-! ### The exhaustion loop in the row (42_mixer.md R208, R209) -/

section
variable {v : Voice} {lo hi : Nat} {m m' : Memory} {c : Config}

/-- A position past a buffer is at or beyond its samples (42_mixer.md R208). -/
theorem Voice.inBuffer_exhausted {i p : Nat} (hp : p < 2 ^ 16 * v.samplesBefore c m i + 2 ^ 32)
    (hpast : 2 ^ 16 * v.samplesBefore c m (i + 1) ≤ p) (q : BitVec 8) :
    ((v.inBuffer c m i p).withFilter q).lcount.toNat ≤ ((v.inBuffer c m i p).withFilter q).posIndex := by
  rw [v.samplesBefore_succ] at hpast
  have hindex := (v.refilled c m i).movedTo_posIndex (p := p - 2 ^ 16 * v.samplesBefore c m i) (by omega)
  have hle : (v.refilled c m i).lcount.toNat ≤ (p - 2 ^ 16 * v.samplesBefore c m i) / 65536 := by omega
  exact hle.trans_eq hindex.symm

/-- A refill at a position past the buffer carries the position on (42_mixer.md R208). -/
theorem Voice.StreamsOutside.consumeBuffer_refill (h : v.StreamsOutside lo hi) (hm : m.SameOutside lo hi m') {i p : Nat}
    (hp : p < 2 ^ 16 * v.samplesBefore c m i + 2 ^ 32) (q : BitVec 8) :
    ((v.inBuffer c m i p).withFilter q).consumeBuffer.refill c m' = (v.inBuffer c m (i + 1) p).withFilter q := by
  have hpos : p - 2 ^ 16 * v.samplesBefore c m i - (v.refilled c m i).lcount.toNat * 65536 =
      p - 2 ^ 16 * v.samplesBefore c m (i + 1) := by
    rw [v.samplesBefore_succ]
    omega
  have hsame := (h.refilled c m i).refill_eq hm c
  rw [Voice.consumeBuffer, BitVec.toNat_ofNat, Nat.mod_eq_of_lt (by omega)]
  exact (Voice.refill_movedTo_withFilter (v.refilled c m i) c m' _ q).trans (by rw [hsame, hpos]; rfl)

/-- Past as many buffers as there are refills, each of which brings samples, the voice is refilled as often
(42_mixer.md R208). -/
theorem Voice.StreamsOutside.exhaust_past (h : v.StreamsOutside lo hi) (hm : m.SameOutside lo hi m') {p d : Nat}
    (left : Nat) {i : Nat} (hp : p < 2 ^ 16 * v.samplesBefore c m i + 2 ^ 32)
    (hpast : 2 ^ 16 * v.samplesBefore c m (i + d) ≤ p)
    (hbrings : ∀ j, i < j → j ≤ i + d → (v.refilled c m j).lcount ≠ 0) (q : BitVec 8) :
    exhaust c m' (left + d) ((v.inBuffer c m i p).withFilter q) =
      exhaust c m' left ((v.inBuffer c m (i + d) p).withFilter q) := by
  induction d generalizing i with
  | zero => rfl
  | succ d ih =>
    have hmono := v.samplesBefore_mono c m (show i + 1 ≤ i + (d + 1) by omega)
    have hsucc := v.samplesBefore_succ c m i
    rw [← Nat.add_assoc, exhaust_refill _ _ _ _ (Voice.inBuffer_exhausted hp
      (by omega) q), h.consumeBuffer_refill hm hp,
      if_neg (hbrings (i + 1) (by omega) (by omega))]
    rw [show i + (d + 1) = i + 1 + d by omega] at hpast hbrings ⊢
    exact ih (by omega) hpast fun j hj hle => hbrings j (by omega) hle

/-- A refill that brings nothing ends the voice with position 0 (42_mixer.md R208). -/
theorem Voice.StreamsOutside.exhaust_ended (h : v.StreamsOutside lo hi) (hm : m.SameOutside lo hi m') {i p : Nat}
    (left : Nat) (hp : p < 2 ^ 16 * v.samplesBefore c m i + 2 ^ 32)
    (hpast : 2 ^ 16 * v.samplesBefore c m (i + 1) ≤ p) (hempty : (v.refilled c m (i + 1)).lcount = 0) (q : BitVec 8) :
    exhaust c m' (left + 1) ((v.inBuffer c m i p).withFilter q) =
      ({ v.refilled c m (i + 1) with pos := 0, lpPrev := q }, left, .ended) := by
  rw [exhaust_refill _ _ _ _ (Voice.inBuffer_exhausted hp hpast q), h.consumeBuffer_refill hm hp, if_pos hempty]

/-- Where the cap's last refill is used up the voice is left with position 0 (42_mixer.md R209). -/
theorem Voice.exhaust_capped {i p : Nat} (hp : p < 2 ^ 16 * v.samplesBefore c m i + 2 ^ 32)
    (hpast : 2 ^ 16 * v.samplesBefore c m (i + 1) ≤ p) (q : BitVec 8) :
    exhaust c m' 0 ((v.inBuffer c m i p).withFilter q) =
      ({ v.refilled c m i with pos := 0, lpPrev := q }, 0, .capped) := by
  rw [Machine.exhaust_capped _ _ _ (Voice.inBuffer_exhausted hp hpast q)]

/-- A position inside a buffer leaves the voice playing (42_mixer.md R208). -/
theorem Voice.StreamsOutside.exhaust_inside (h : v.StreamsOutside lo hi) {i p : Nat} (hp : v.InBuffer c m i p)
    (left : Nat)
    (q : BitVec 8) :
    exhaust c m' left ((v.inBuffer c m i p).withFilter q) = ((v.inBuffer c m i p).withFilter q, left, .playing) :=
  Machine.exhaust_inside _ _ _ _ (h.inBuffer_posIndex c m hp).2.2

end

end Sys2Proof.Machine

/-! ## One voice alone in a mix, with its refills (42_mixer.md R203 to R209) -/

namespace Sys2Proof.Machine

/-- A pass with one voice that takes part is that voice's share (42_mixer.md R203). -/
theorem State.mixVoices_of_alone (s : State) (buf : Nat) {v : Voice} (vs : List Voice) : ∀ (j : Nat) (acc : MixAcc),
    vs[j]? = some v → (∀ i w, i ≠ j → vs[i]? = some w → w.takesPart = false) →
    s.mixVoices buf vs acc = (vs.set j (s.mixVoice buf v acc).1, (s.mixVoice buf v acc).2) := by
  induction vs with
  | nil => exact fun j acc hv => by simp at hv
  | cons u us ih =>
    intro j acc hv hothers
    cases j with
    | zero =>
      obtain rfl : u = v := by simpa using hv
      have hrest : ∀ w ∈ us, w.takesPart = false := fun w hw => by
        obtain ⟨i, hi⟩ := List.mem_iff_getElem?.1 hw
        exact hothers (i + 1) w (Nat.succ_ne_zero i) hi
      rw [State.mixVoices_cons, s.mixVoices_of_none buf us _ hrest]
      rfl
    | succ j =>
      have hfirst : u.takesPart = false := hothers 0 u (Nat.succ_ne_zero j).symm rfl
      have hrest := ih j acc hv fun i w hne => hothers (i + 1) w fun he => hne (Nat.succ.inj he)
      rw [State.mixVoices_cons, s.mixVoice_of_not_takesPart buf hfirst, hrest]
      rfl

/-- The outputs of the first `frames` frames of a voice whose buffers up to the `k`-th refill lie in one row
(42_mixer.md R204, R207). -/
def State.streamOutput (s : State) (v : Voice) (k frames : Nat) : List Int :=
  s.heard v.lpPrev.toInt
    ((List.range frames).map fun f => ((v.stream s.cfg s.mem k).getD (v.positionAt f / 2 ^ 16) 0).toInt)

/-- The voice before frame `f`, its filter memory aside, while its position lies in one of the buffers up to the
`K`-th. -/
abbrev State.streamVoice (s : State) (v : Voice) (K f : Nat) : Voice :=
  v.inBuffer s.cfg s.mem (v.bufferAt s.cfg s.mem K (v.positionAt f)) (v.positionAt f)

/-- The refills left before frame `f` (42_mixer.md R209). -/
abbrev State.streamLeft (s : State) (v : Voice) (K f : Nat) : Nat :=
  refillCap - v.bufferAt s.cfg s.mem K (v.positionAt f)

section
variable {s : State} {v : Voice} {lo hi K n : Nat}

/-- A frame moves the voice on in the row of its buffers (42_mixer.md R206). -/
theorem State.streamVoice_advance (h : v.positionAt n < 2 ^ 16 * v.samplesBefore s.cfg s.mem (K + 1)) :
    (s.streamVoice v K n).movedTo ((s.streamVoice v K n).pos.toNat + (s.streamVoice v K n).step.toNat) =
      v.inBuffer s.cfg s.mem (v.bufferAt s.cfg s.mem K (v.positionAt n)) (v.positionAt (n + 1)) := by
  obtain ⟨-, hstep, -⟩ := v.refilled_sameSound s.cfg s.mem (v.bufferAt s.cfg s.mem K (v.positionAt n))
  obtain ⟨hlow, -⟩ := Voice.inBuffer_bufferAt h
  rw [Voice.movedTo_advance, hstep, v.positionAt_succ, ← Nat.sub_add_comm hlow]

/-- One step past a buffer the position still fits its register (42_mixer.md R206). -/
theorem Voice.StreamsOutside.positionAt_succ_lt (h : v.StreamsOutside lo hi)
    (hp : v.positionAt n < 2 ^ 16 * v.samplesBefore s.cfg s.mem (K + 1)) :
    v.positionAt (n + 1) <
      2 ^ 16 * v.samplesBefore s.cfg s.mem (v.bufferAt s.cfg s.mem K (v.positionAt n)) + 2 ^ 32 := by
  obtain ⟨-, hhigh⟩ := Voice.inBuffer_bufferAt hp
  obtain ⟨-, hmax, -⟩ := (h.refilled s.cfg s.mem (v.bufferAt s.cfg s.mem K (v.positionAt n))).playable
  obtain ⟨-, -, -, hrates⟩ := h.playable
  obtain ⟨-, hstep, -⟩ := hrates h.active
  rw [v.samplesBefore_succ] at hhigh
  rw [v.positionAt_succ]
  omega

/-- While the positions lie in buffers that bring samples, and the cap is not reached, the voice plays on
(42_mixer.md R208, R209). -/
theorem Voice.StreamsOutside.playsOn (h : v.StreamsOutside lo hi) (hK : K ≤ refillCap)
    (hbrings : ∀ i, i ≤ K → (v.refilled s.cfg s.mem i).lcount ≠ 0)
    (hp : v.positionAt n < 2 ^ 16 * v.samplesBefore s.cfg s.mem (K + 1)) :
    s.PlaysOn s.mem lo hi n (s.streamVoice v K) (s.streamLeft v K) := by
  intro f hf q m' hm
  have hnext : v.positionAt (f + 1) < 2 ^ 16 * v.samplesBefore s.cfg s.mem (K + 1) := (v.positionAt_mono hf).trans_lt hp
  have hadvance : v.positionAt f ≤ v.positionAt (f + 1) := v.positionAt_mono f.le_succ
  have hthis := hadvance.trans_lt hnext
  have hmono := v.bufferAt_mono s.cfg s.mem K hadvance
  have hle := v.bufferAt_le s.cfg s.mem K (v.positionAt (f + 1))
  have hin := Voice.inBuffer_bufferAt hnext
  obtain ⟨d, hd⟩ := Nat.exists_eq_add_of_le hmono
  have hleft : s.streamLeft v K f = s.streamLeft v K (f + 1) + d := by
    simp only [State.streamLeft]
    omega
  have hpast := h.exhaust_past hm (s.streamLeft v K (f + 1)) (d := d) (h.positionAt_succ_lt hthis) (hd ▸ hin.1)
    (fun j _ hj => hbrings j (by omega)) q
  rw [State.streamVoice_advance hthis, hleft, hpast, ← hd]
  exact h.exhaust_inside hin _ q

/-- The samples of the frames are those of the row (42_mixer.md R204). -/
theorem Voice.StreamsOutside.frameSamples_eq (h : v.StreamsOutside lo hi) {k : Nat} (hk : K ≤ k)
    (hp : ∀ f, f < n → v.positionAt f < 2 ^ 16 * v.samplesBefore s.cfg s.mem (K + 1)) :
    frameSamples (s.streamVoice v K) n =
      (List.range n).map fun f => ((v.stream s.cfg s.mem k).getD (v.positionAt f / 2 ^ 16) 0).toInt :=
  List.map_congr_left fun f hf => h.inBuffer_sample s.cfg s.mem ((v.bufferAt_le s.cfg s.mem K _).trans hk)
    (Voice.inBuffer_bufferAt (hp f (List.mem_range.1 hf)))

/-- The pass begins with the voice as it is and all refills of the cap left (42_mixer.md R200, R209). -/
theorem State.streamVoice_zero (h : v.positionAt 0 < 2 ^ 16 * v.samplesBefore s.cfg s.mem 1) :
    s.streamVoice v K 0 = v ∧ s.streamLeft v K 0 = refillCap := by
  have hfirst : v.bufferAt s.cfg s.mem K (v.positionAt 0) = 0 :=
    Voice.bufferAt_eq (Nat.zero_le K) ⟨Nat.zero_le _, h⟩
  rw [State.streamVoice, State.streamLeft, hfirst]
  exact ⟨v.movedTo_positionAt_zero, rfl⟩

variable {g : Nat × Nat} {buf k : Nat} {m : Memory}

/-- All frames of a voice that plays on to the end of the pass (42_mixer.md R204 to R208). -/
theorem Voice.StreamsOutside.mixFrames_playing (hfilter : s.FilterOk) (h : v.StreamsOutside buf (buf + 4 * n))
    (hm : s.mem.SameOutside buf (buf + 4 * n) m) (hk : k ≤ refillCap)
    (hbrings : ∀ i, i < k → (v.refilled s.cfg s.mem i).lcount ≠ 0)
    (hfirst : v.positionAt 0 < 2 ^ 16 * v.samplesBefore s.cfg s.mem 1) (hlast : v.InBuffer s.cfg s.mem k
      (v.positionAt n)) :
    s.mixFrames g n buf refillCap v m =
      ((v.inBuffer s.cfg s.mem k (v.positionAt n)).withFilter (s.filterMemory v.lpPrev (s.streamOutput v k n)),
        addOutputs g buf (s.streamOutput v k n) m, .playing) := by
  have hbrings' : ∀ i, i ≤ k → (v.refilled s.cfg s.mem i).lcount ≠ 0 := by
    intro i hi hzero
    obtain rfl | hlt := hi.eq_or_lt
    · obtain ⟨hlow, hhigh⟩ := hlast
      rw [v.samplesBefore_succ, hzero] at hhigh
      exact absurd hhigh (Nat.not_lt.2 hlow)
    · exact hbrings i hlt hzero
  have hframes := State.mixFrames_of_playsOn_all hfilter g (h.playsOn hk hbrings' hlast.2) (le_refl buf) (le_refl _)
    v.lpPrev hm
  obtain ⟨hvoice, hleft⟩ := State.streamVoice_zero (K := k) hfirst
  rw [h.frameSamples_eq (le_refl k) fun f hf => (v.positionAt_mono hf.le).trans_lt hlast.2, hvoice, hleft,
    State.streamVoice, Voice.bufferAt_eq (le_refl k) hlast] at hframes
  exact hframes

/-- The frames up to the one whose advance leaves the buffers up to the `K`-th, before the exhaustion check
(42_mixer.md R204 to R208). -/
theorem Voice.StreamsOutside.mixFrames_leaving (hfilter : s.FilterOk) {r : Nat}
    (h : v.StreamsOutside buf (buf + 4 * (n + 1 + r))) (hm : s.mem.SameOutside buf (buf + 4 * (n + 1 + r)) m)
    (hK : K ≤ refillCap) (hk : K ≤ k) (hbrings : ∀ i, i ≤ K → (v.refilled s.cfg s.mem i).lcount ≠ 0)
    (hfirst : v.positionAt 0 < 2 ^ 16 * v.samplesBefore s.cfg s.mem 1)
    (hbefore : ∀ f, f < n + 1 → v.positionAt f < 2 ^ 16 * v.samplesBefore s.cfg s.mem (K + 1)) :
    let ys := s.streamOutput v k (n + 1)
    s.mixFrames g (n + 1 + r) buf refillCap v m =
      s.resume g r (buf + 4 * (n + 1)) (addOutputs g buf ys m)
        (exhaust s.cfg (addOutputs g buf ys m) (s.streamLeft v K n)
          ((v.inBuffer s.cfg s.mem (v.bufferAt s.cfg s.mem K (v.positionAt n)) (v.positionAt (n + 1))).withFilter
            (s.filterMemory v.lpPrev ys))) := by
  have hthis := hbefore n n.lt_succ_self
  have hframes := State.mixFrames_of_playsOn hfilter g r (h.playsOn hK hbrings hthis) (le_refl buf)
    (by omega) v.lpPrev hm
  obtain ⟨hvoice, hleft⟩ := State.streamVoice_zero (K := K) hfirst
  rw [h.frameSamples_eq hk hbefore, hvoice, hleft, State.streamVoice_advance hthis] at hframes
  exact hframes

/-- The voice past the `K`-th buffer is refilled up to it first (42_mixer.md R208). -/
theorem Voice.StreamsOutside.exhaust_to_last (h : v.StreamsOutside lo hi) (hm : s.mem.SameOutside lo hi m)
    (hK : K ≤ refillCap) (hbrings : ∀ i, i ≤ K → (v.refilled s.cfg s.mem i).lcount ≠ 0)
    (hthis : v.positionAt n < 2 ^ 16 * v.samplesBefore s.cfg s.mem (K + 1))
    (hpast : 2 ^ 16 * v.samplesBefore s.cfg s.mem K ≤ v.positionAt (n + 1)) (q : BitVec 8) :
    exhaust s.cfg m (s.streamLeft v K n)
        ((v.inBuffer s.cfg s.mem (v.bufferAt s.cfg s.mem K (v.positionAt n)) (v.positionAt (n + 1))).withFilter q) =
      exhaust s.cfg m (refillCap - K) ((v.inBuffer s.cfg s.mem K (v.positionAt (n + 1))).withFilter q) := by
  obtain ⟨d, hd⟩ := Nat.exists_eq_add_of_le (v.bufferAt_le s.cfg s.mem K (v.positionAt n))
  have hleft : s.streamLeft v K n = refillCap - K + d := by
    simp only [State.streamLeft]
    omega
  rw [hleft, h.exhaust_past hm (refillCap - K) (d := d) (h.positionAt_succ_lt hthis) (hd ▸ hpast)
    (fun j _ hj => hbrings j (by omega)) q, ← hd]

/-- A step past the `K`-th buffer fits the register there (42_mixer.md R206). -/
theorem Voice.StreamsOutside.positionAt_succ_lt_last (h : v.StreamsOutside lo hi)
    (hthis : v.positionAt n < 2 ^ 16 * v.samplesBefore s.cfg s.mem (K + 1)) :
    v.positionAt (n + 1) < 2 ^ 16 * v.samplesBefore s.cfg s.mem K + 2 ^ 32 := by
  have hlt := h.positionAt_succ_lt hthis
  have hmono := v.samplesBefore_mono s.cfg s.mem (v.bufferAt_le s.cfg s.mem K (v.positionAt n))
  omega

/-- The first buffer is not used up before the first frame, so some frame uses up the `i`-th (42_mixer.md R208). -/
theorem Voice.frames_ne_zero (hfirst : v.positionAt 0 < 2 ^ 16 * v.samplesBefore s.cfg s.mem 1) {i : Nat}
    (hpast : 2 ^ 16 * v.samplesBefore s.cfg s.mem (i + 1) ≤ v.positionAt n) : n ≠ 0 := by
  rintro rfl
  have hmono := v.samplesBefore_mono s.cfg s.mem (Nat.succ_le_succ (Nat.zero_le i))
  exact absurd (hfirst.trans_le (Nat.mul_le_mul_left _ hmono)) (Nat.not_lt.2 hpast)

variable {N frames : Nat}

/-- All frames of a voice that ends because the refill after the `K`-th brings nothing (42_mixer.md R208). -/
theorem Voice.StreamsOutside.mixFrames_ended (hfilter : s.FilterOk) (h : v.StreamsOutside buf (buf + 4 * N))
    (hm : s.mem.SameOutside buf (buf + 4 * N) m) (hle : frames ≤ N) (hK : K < refillCap)
    (hbrings : ∀ i, i < K + 1 → (v.refilled s.cfg s.mem i).lcount ≠ 0)
    (hempty : (v.refilled s.cfg s.mem (K + 1)).lcount = 0)
    (hfirst : v.positionAt 0 < 2 ^ 16 * v.samplesBefore s.cfg s.mem 1)
    (hpast : 2 ^ 16 * v.samplesBefore s.cfg s.mem (K + 1) ≤ v.positionAt frames)
    (hbefore : ∀ f, f < frames → v.positionAt f < 2 ^ 16 * v.samplesBefore s.cfg s.mem (K + 1)) :
    let ys := s.streamOutput v (K + 1) frames
    s.mixFrames g N buf refillCap v m =
      ({ v.refilled s.cfg s.mem (K + 1) with pos := 0, lpPrev := s.filterMemory v.lpPrev ys }, addOutputs g buf ys m,
        .ended) := by
  intro ys
  have hmem : s.mem.SameOutside buf (buf + 4 * N) (addOutputs g buf ys m) :=
    hm.trans ((addOutputs_sameOutside g ys buf m).mono (le_refl _) (by simpa [ys, State.streamOutput] using hle))
  obtain ⟨n, rfl⟩ := Nat.exists_eq_add_one_of_ne_zero (Voice.frames_ne_zero hfirst hpast)
  obtain ⟨r, rfl⟩ := Nat.exists_eq_add_of_le hle
  have hbrings' : ∀ i, i ≤ K → (v.refilled s.cfg s.mem i).lcount ≠ 0 := fun i hi => hbrings i (Nat.lt_succ_of_le hi)
  have hthis := hbefore n n.lt_succ_self
  have hmono : v.samplesBefore s.cfg s.mem K ≤ v.samplesBefore s.cfg s.mem (K + 1) := v.samplesBefore_mono _ _ K.le_succ
  obtain ⟨left, hleft⟩ : ∃ left, refillCap - K = left + 1 := Nat.exists_eq_add_one.2 (by omega)
  rw [h.mixFrames_leaving hfilter hm hK.le K.le_succ hbrings' hfirst hbefore,
    h.exhaust_to_last hmem hK.le hbrings' hthis (by omega), hleft,
    h.exhaust_ended hmem left (h.positionAt_succ_lt_last hthis) hpast hempty]
  rfl

/-- All frames of a voice that would need one refill more than the cap allows (42_mixer.md R209). -/
theorem Voice.StreamsOutside.mixFrames_capped (hfilter : s.FilterOk) (h : v.StreamsOutside buf (buf + 4 * N))
    (hm : s.mem.SameOutside buf (buf + 4 * N) m) (hle : frames ≤ N)
    (hbrings : ∀ i, i < refillCap → (v.refilled s.cfg s.mem i).lcount ≠ 0)
    (hlast : (v.refilled s.cfg s.mem refillCap).lcount ≠ 0)
    (hfirst : v.positionAt 0 < 2 ^ 16 * v.samplesBefore s.cfg s.mem 1)
    (hpast : 2 ^ 16 * v.samplesBefore s.cfg s.mem (refillCap + 1) ≤ v.positionAt frames)
    (hbefore : ∀ f, f < frames → v.positionAt f < 2 ^ 16 * v.samplesBefore s.cfg s.mem (refillCap + 1)) :
    let ys := s.streamOutput v refillCap frames
    s.mixFrames g N buf refillCap v m =
      ({ v.refilled s.cfg s.mem refillCap with pos := 0, lpPrev := s.filterMemory v.lpPrev ys }, addOutputs g buf ys m,
        .capped) := by
  intro ys
  have hmem : s.mem.SameOutside buf (buf + 4 * N) (addOutputs g buf ys m) :=
    hm.trans ((addOutputs_sameOutside g ys buf m).mono (le_refl _) (by simpa [ys, State.streamOutput] using hle))
  obtain ⟨n, rfl⟩ := Nat.exists_eq_add_one_of_ne_zero (Voice.frames_ne_zero hfirst hpast)
  obtain ⟨r, rfl⟩ := Nat.exists_eq_add_of_le hle
  have hbrings' : ∀ i, i ≤ refillCap → (v.refilled s.cfg s.mem i).lcount ≠ 0 := fun i hi => by
    obtain rfl | hlt := hi.eq_or_lt
    · exact hlast
    · exact hbrings i hlt
  have hthis := hbefore n n.lt_succ_self
  have hmono : v.samplesBefore s.cfg s.mem refillCap ≤ v.samplesBefore s.cfg s.mem (refillCap + 1) :=
    v.samplesBefore_mono _ _ refillCap.le_succ
  rw [h.mixFrames_leaving hfilter hm (le_refl _) (le_refl _) hbrings' hfirst hbefore,
    h.exhaust_to_last hmem (le_refl _) hbrings' hthis (by omega), Nat.sub_self,
    Voice.exhaust_capped (h.positionAt_succ_lt_last hthis) hpast]
  rfl

end

/-! ### The whole pass (42_mixer.md R200, R203) -/

/-- The source of an active voice of a good state, outside the sink as O41 says it, streams outside it. -/
theorem Voice.Sound.streamsOutside {v : Voice} (hv : v.Sound) (hactive : v.active = true) {lo hi : Nat}
    (h : ∀ a, lo ≤ a → a < hi → (a < v.srcCur.toNat ∨ v.srcCur.toNat + v.bytesLeft ≤ a) ∧
      (v.looping = true → a < v.loopStart.toNat ∨ endAddress v.loopEnd ≤ a)) : v.StreamsOutside lo hi where
  active := hactive
  playable := ⟨hv.lbuf, (hv.buffer hactive).2.1, hv.source, hv.rates⟩
  source a hlo hhi := (h a hlo hhi).1
  loop hloop a hlo hhi := (h a hlo hhi).2 hloop

/-- An active voice of a good state begins a pass inside its first buffer and takes part (10_state.md R36 (I2)). -/
theorem Voice.Sound.begins {v : Voice} (hv : v.Sound) (hactive : v.active = true) (c : Config) (m : Memory) :
    v.takesPart = true ∧ v.lcount ≠ 0 ∧ v.positionAt 0 < 2 ^ 16 * v.samplesBefore c m 1 := by
  obtain ⟨hcount, -, hpos⟩ := hv.buffer hactive
  have hne : v.lcount ≠ 0 := fun h0 => by simp [h0] at hcount
  have hfirst : v.samplesBefore c m 1 = v.lcount.toNat := by simp [Voice.samplesBefore, Voice.refilled]
  refine ⟨Bool.and_eq_true_iff.2 ⟨hactive, bne_iff_ne.2 hne⟩, hne, ?_⟩
  unfold Voice.posIndex at hpos
  rw [hfirst, Voice.positionAt]
  omega

/-- Settles O41: the voice's share is its frames in the row of its buffers, and the sink is what their outputs add to
the bed. -/
theorem mixRefillsAndEndsAVoice : Obligations.MixRefillsAndEndsAVoice := by
  intro s j k frames v hs buf halign hfits hv hactive hothers houtside before last output w hk hbrings hframes
  obtain ⟨-, hsound⟩ := s.inv_iff.1 hs
  have hvSound := hsound.voices v (List.mem_of_getElem? hv)
  have h := hvSound.streamsOutside hactive houtside
  obtain ⟨hpart, hcount, hfirst⟩ := hvSound.begins hactive s.cfg s.mem
  have hfilter : s.FilterOk := fun _ => hs.filter
  have hbed : s.mem.SameOutside buf (buf + 4 * s.cfg.nf) (s.mixBed buf) := fun _ ha => s.mixBed_read_other ha
  have hsink : s.SinkHolds (addOutputs (s.gains v) buf output (s.mixBed buf)) [(v, output)] :=
    State.sinkHolds_addVoices (outputs := [(v, output)]) hs.memory hfits (by simpa [output] using hframes)
  have hpass := s.mixVoices_of_alone buf s.voices j ⟨s.mixBed buf, s.cbq, s.errflags, 0⟩ hv fun i u hi hu => by
    simp [Voice.takesPart, hothers i u hi hu]
  rw [State.mixVoice, if_pos hpart] at hpass
  refine ⟨fun hall hlow hhigh => ⟨_, hsink, ?plays⟩, fun hempty hpast hbefore => ⟨_, hsink, ?ends⟩,
    fun hcap hlast hpast hbefore => ⟨_, hsink, ?capped⟩⟩
  case plays =>
    subst hall
    rw [h.mixFrames_playing hfilter hbed hk hbrings hfirst ⟨hlow, hhigh⟩] at hpass
    exact exec_mix_of_pass halign hfits hpass
  case ends =>
    obtain ⟨K, rfl⟩ : ∃ K, k = K + 1 := Nat.exists_eq_add_one_of_ne_zero fun hzero => by
      subst hzero
      exact hcount hempty
    obtain ⟨-, -, -, -, -, htoken, -⟩ := v.refilled_sameSound s.cfg s.mem (K + 1)
    have hqueue : s.cbq.enqueue (v.refilled s.cfg s.mem (K + 1)).token = s.cbq.enqueue v.token := congrArg _ htoken
    rw [h.mixFrames_ended hfilter hbed hframes hk hbrings hempty hfirst hpast hbefore] at hpass
    dsimp only at hpass
    rw [hqueue, enqueueFlags_eq] at hpass
    exact exec_mix_of_pass halign hfits hpass
  case capped =>
    subst hcap
    rw [h.mixFrames_capped hfilter hbed hframes hbrings hlast hfirst hpast hbefore] at hpass
    exact exec_mix_of_pass halign hfits hpass

end Sys2Proof.Machine

/-! ## The callback queue and the drain session (43_callback_queue.md) -/

namespace Sys2Proof.Machine

/-! ### First in, first out (43_callback_queue.md R231, R232) -/

/-- The oldest token leads the others, which a pop leaves in order (43_callback_queue.md R232). -/
theorem CallbackQueue.tokens_eq_front_cons {q : CallbackQueue} (hne : q.count ≠ 0) :
    q.tokens = q.front :: q.pop.tokens := by
  have hsucc : q.count.toNat = (q.count - 1).toNat + 1 := by bv_omega
  have hfront : Fin.ofNat 32 q.head.toNat = q.head.toFin := Fin.ext (Nat.mod_eq_of_lt q.head.isLt)
  have hnext (k : Nat) : Fin.ofNat 32 (q.head.toNat + (k + 1)) = Fin.ofNat 32 ((q.head + 1).toNat + k) := by
    have hmod : (q.head + 1).toNat = (q.head.toNat + 1) % 32 := BitVec.toNat_add q.head 1
    ext
    simp only [Fin.ofNat, hmod]
    omega
  unfold CallbackQueue.tokens
  rw [hsucc, List.range_succ_eq_map, List.map_cons, List.map_map, Nat.add_zero, hfront]
  congr 1
  exact List.map_congr_left fun k _ => congrArg q.ent.get (hnext k)

/-- Settles O47, by the two cases of an enqueue and the head of the token list. -/
theorem queueIsFirstInFirstOut : Obligations.QueueIsFirstInFirstOut := by
  intro q t hq
  refine ⟨fun hfull => ?full, fun hroom => ?room,
    fun hne => ⟨CallbackQueue.tokens_eq_front_cons hne, CallbackQueue.pop_ok hq hne⟩, q.tokens_length⟩
  case full =>
    obtain ⟨-, he⟩ := (q.enqueue_cases t).resolve_right fun h => h.1 hfull
    exact he
  case room =>
    have hok := CallbackQueue.enqueue_ok hq t
    obtain ⟨-, he⟩ := (q.enqueue_cases t).resolve_left fun h => hroom h.1
    rw [he] at hok ⊢
    exact ⟨CallbackQueue.tokens_push hq hroom t, hok, q.push_head t⟩

/-! ### The drain session (43_callback_queue.md R233 to R235) -/

/-- A command that steps the session with a token queued and budget left presents the oldest token and answers 1
(43_callback_queue.md R233). -/
theorem State.advance_complete_of_token {s : State} (hcount : s.cbq.count ≠ 0) (hleft : s.drainLeft ≠ 0) :
    s.advance.complete s.advance.cbValidWord = { s with
      cbq := s.cbq.pop, drainLeft := s.drainLeft - 1, cbToken := s.cbq.front, cbValid := true,
      cbout := s.cbout ++ [s.cbq.front], res := 1, err := 0 } := by
  rcases s.advance_cases with ⟨-, -, h⟩ | ⟨hnone | hspent, -⟩
  · rw [h]
    rfl
  · exact absurd hnone hcount
  · exact absurd hspent hleft

/-- A command that steps the session with the queue empty or the budget used up closes it and answers 0
(43_callback_queue.md R233). -/
theorem State.advance_complete_of_done {s : State} (hdone : s.cbq.count = 0 ∨ s.drainLeft = 0) :
    s.advance.complete s.advance.cbValidWord =
      { s with draining := false, cbValid := false, drainLeft := 0, res := 0, err := 0 } := by
  rcases s.advance_cases with ⟨hcount, hleft, -⟩ | ⟨-, h⟩
  · exact absurd hdone (not_or.2 ⟨hcount, hleft⟩)
  · rw [h]
    rfl

/-- A nested `DRAIN` is a no-op (43_callback_queue.md R234). -/
theorem exec_drain_nested {s : State} (hopen : s.draining = true) : exec .drain s = .next (s.complete 0) :=
  if_pos hopen

/-- Outside a session `DRAIN` opens one and advances it (43_callback_queue.md R234). -/
theorem exec_drain_opens {s : State} (hclosed : s.draining = false) :
    exec .drain s = .next (s.openDrain.advance.complete s.openDrain.advance.cbValidWord) :=
  if_neg (Bool.eq_false_iff.1 hclosed)

/-- `CBACK` with nothing to acknowledge is a no-op (43_callback_queue.md R235). -/
theorem exec_cback_idle {s : State} (hidle : s.draining = false ∨ s.cbValid = false) :
    exec .cback s = .next (s.complete 0) :=
  if_neg (Bool.eq_false_iff.1 (Bool.and_eq_false_iff.2 hidle))

/-- `CBACK` of a presented token advances the session (43_callback_queue.md R235). -/
theorem exec_cback_advances {s : State} (hopen : s.draining = true) (hvalid : s.cbValid = true) :
    exec .cback s = .next (s.advance.complete s.advance.cbValidWord) :=
  if_pos (Bool.and_eq_true_iff.2 ⟨hopen, hvalid⟩)

/-- Settles O45: a session opens with a budget of 8, so only an empty queue closes it at once. -/
theorem drainResult : Obligations.DrainResult := by
  intro s
  refine ⟨exec_drain_nested, fun hclosed hnone => ?empty, fun hclosed hcount => ?token⟩
  case empty =>
    rw [exec_drain_opens hclosed, State.advance_complete_of_done (s := s.openDrain) (.inl hnone)]
    rfl
  case token =>
    have hbudget : s.openDrain.drainLeft ≠ 0 := show (8 : BitVec 4) ≠ 0 by decide
    have hspent : s.openDrain.drainLeft - 1 = 7 := show (8 : BitVec 4) - 1 = 7 by decide
    rw [exec_drain_opens hclosed, State.advance_complete_of_token (s := s.openDrain) hcount hbudget, hspent]
    rfl

/-- Settles O46, by whether a token waits for its acknowledgement and what `advance()` then finds. -/
theorem cbackResult : Obligations.CbackResult := by
  intro s
  refine ⟨exec_cback_idle, fun hopen hvalid hdone => ?closes, fun hopen hvalid hcount hleft => ?token⟩
  case closes =>
    rw [exec_cback_advances hopen hvalid, State.advance_complete_of_done hdone]
  case token =>
    rw [exec_cback_advances hopen hvalid, State.advance_complete_of_token hcount hleft, ← hvalid]
    rfl

end Sys2Proof.Machine

/-! ## The OPL allocator and the channel events (44_opl_allocator.md) -/

namespace Sys2Proof.Machine

/-! ### The bytes of the register writes (45_fm_register_mapper.md R293, R296) -/

/-- A per-voice register is its base plus the voice number (45_fm_register_mapper.md R293). -/
theorem voiceReg_ofNat (base : Nat) (k : Fin 9) : voiceReg (BitVec.ofNat 8 base) k = BitVec.ofNat 8 (base + k.val) :=
  (BitVec.ofNat_add base k.val).symm

/-- The key-on register holds what stands above the low byte of the key-on bit and the pitch word
(45_fm_register_mapper.md R293). -/
theorem keyByte_eq_ofNat (keyon : Bool) (p : BitVec 13) :
    keyByte keyon p = BitVec.ofNat 8 ((p.toNat + 2 ^ 13 * keyon.toNat) / 2 ^ 8) := by
  have hp := p.isLt
  have hkey : keyon.toNat ≤ 1 := Bool.toNat_le keyon
  apply BitVec.eq_of_toNat_eq
  simp only [keyByte, toNat_append_eq_add, BitVec.toNat_ofBool, BitVec.toNat_ofNat, BitVec.extractLsb'_toNat,
    Nat.shiftRight_eq_div_pow]
  omega

/-- The frequency register holds the low byte of the pitch word (45_fm_register_mapper.md R293). -/
theorem freqByte_eq_ofNat (keyon : Bool) (p : BitVec 13) :
    freqByte p = BitVec.ofNat 8 ((p.toNat + 2 ^ 13 * keyon.toNat) % 2 ^ 8) := by
  apply BitVec.eq_of_toNat_eq
  simp only [freqByte, BitVec.toNat_ofNat, BitVec.extractLsb'_toNat, Nat.shiftRight_zero]
  omega

/-- The write of a `KeyOff` (44_opl_allocator.md R255). -/
theorem keyOff_write_eq (k : Fin 9) (o : OplVoice) : (voiceReg 0xB0 k, keyByte false o.pitch) = keyOffPair k o := by
  have hp := o.pitch.isLt
  have hhigh : (o.pitch.toNat + 2 ^ 13 * false.toNat) / 2 ^ 8 = o.pitch.toNat / 2 ^ 8 % 2 ^ 5 := by
    simp only [Bool.toNat_false]
    omega
  rw [keyByte_eq_ofNat, hhigh, keyOffPair, ← voiceReg_ofNat]
  rfl

/-- The writes of a `SetVoicePitch`, the low register first (45_fm_register_mapper.md R300). -/
theorem pitch_writes_eq (k : Fin 9) (keyon : Bool) (p : BitVec 13) :
    [(voiceReg 0xA0 k, freqByte p), (voiceReg 0xB0 k, keyByte keyon p)] = pitchPairs k keyon p := by
  rw [keyByte_eq_ofNat, freqByte_eq_ofNat keyon, pitchPairs, ← voiceReg_ofNat, ← voiceReg_ofNat]
  rfl

/-- The stored loudness of a level byte (45_fm_register_mapper.md R296). -/
theorem loudness_eq_ofNat (b : Byte) : loudness b = BitVec.ofNat 6 (63 - b.toNat % 64) := by
  apply BitVec.eq_of_toNat_eq
  have hmax : (63 : BitVec 6).toNat = 63 := rfl
  simp only [loudness, BitVec.toNat_sub, BitVec.toNat_ofNat, BitVec.extractLsb'_toNat, Nat.shiftRight_zero, hmax]
  omega

/-- The timbre of a note (44_opl_allocator.md R259): the banked percussion timbres are the upper half of the bank. -/
theorem State.noteTimbre_eq (s : State) (ch : BitVec 4) (key : BitVec 7) :
    s.noteTimbre ch key =
      if ch = 9 ∧ s.cfg.percBanked = true then BitVec.ofNat 8 (128 + key.toNat) else (s.chans.get ch.toFin).timbre := by
  have hbank : (1#1 ++ key : BitVec 8) = BitVec.ofNat 8 (128 + key.toNat) := by
    have hkey := key.isLt
    apply BitVec.eq_of_toNat_eq
    simp only [toNat_append_eq_add, BitVec.toNat_ofNat]
    omega
  rw [State.noteTimbre, hbank]
  rfl

/-! ### Work on one voice -/

/-- Writing back the entry that is there changes nothing. -/
theorem Vector.set_get_self {α : Type} {n : Nat} (v : Vector α n) (k : Fin n) : v.set k (v.get k) = v := by
  rw [Vector.get_eq_getElem]
  exact Vector.set_getElem_self k.isLt

/-- The state after work on voice `k` that leaves it as `o` and has made the writes `w`: how a `NOTEON` or a `NOTEOFF`
(44_opl_allocator.md R257, R258) looks between two of its steps. -/
def State.withVoice (s : State) (k : Fin 9) (o : OplVoice) (w : List (Byte × Byte)) : State :=
  { s with ovoices := s.ovoices.set k o, oplw := s.oplw ++ w }

@[simp] theorem State.withVoice_ovoices (s : State) (k : Fin 9) (o : OplVoice) (w : List (Byte × Byte)) :
    (s.withVoice k o w).ovoices = s.ovoices.set k o := rfl

@[simp] theorem State.withVoice_tbValid (s : State) (k : Fin 9) (o : OplVoice) (w : List (Byte × Byte)) :
    (s.withVoice k o w).tbValid = s.tbValid := rfl

/-- Work on voice `k` leaves it as said. -/
theorem State.withVoice_get_same (s : State) (k : Fin 9) (o : OplVoice) (w : List (Byte × Byte)) :
    (s.withVoice k o w).ovoices.get k = o :=
  Vector.get_set_same s.ovoices k o

/-- Work after work on the same voice. -/
theorem State.withVoice_withVoice (s : State) (k : Fin 9) (o o' : OplVoice) (w w' : List (Byte × Byte)) :
    (s.withVoice k o w).withVoice k o' w' = s.withVoice k o' (w ++ w') := by
  simp only [State.withVoice, Vector.set_set, List.append_assoc]

/-- Rewriting the voice keeps the writes made so far. -/
theorem State.withVoice_setOvoice (s : State) (k : Fin 9) (o o' : OplVoice) (w : List (Byte × Byte)) :
    (s.withVoice k o w).setOvoice k o' = s.withVoice k o' w := by
  simp only [State.withVoice, State.setOvoice, Vector.set_set]

/-- A write of the voice table is work without a register write. -/
theorem State.setOvoice_eq_withVoice (s : State) (k : Fin 9) (o : OplVoice) : s.setOvoice k o = s.withVoice k o [] := by
  rw [State.withVoice, List.append_nil]
  rfl

/-- `KeyOff(k)` (44_opl_allocator.md R255) is work on voice `k`. -/
theorem State.keyOff_eq_withVoice (s : State) (k : Fin 9) :
    s.keyOff k = s.withVoice k { s.ovoices.get k with keyon := false } [keyOffPair k (s.ovoices.get k)] := by
  rw [State.keyOff_eq, keyOff_write_eq]
  rfl

/-- A release (44_opl_allocator.md R258) is work on voice `k`. -/
theorem State.release_eq_withVoice (s : State) (k : Fin 9) :
    s.release k =
      s.withVoice k { s.ovoices.get k with keyon := false, active := false } [keyOffPair k (s.ovoices.get k)] := by
  rw [State.release_eq, keyOff_write_eq]
  rfl

/-- The voice `o` once it plays timbre `i` (45_fm_register_mapper.md R296): a voice that already has it keeps its levels. -/
def State.programVoice (s : State) (o : OplVoice) (i : BitVec 8) : OplVoice :=
  if o.timbre = some i then o else
    { o with
      timbre := some i
      lvlMod := BitVec.ofNat 6 (63 - (s.tbByte i 2).toNat % 64), kslMod := s.tbByte i 2 &&& 0xC0
      lvlCar := BitVec.ofNat 6 (63 - (s.tbByte i 3).toNat % 64), kslCar := s.tbByte i 3 &&& 0xC0 }

/-- The programmed voice has the timbre. -/
theorem State.programVoice_timbre (s : State) (o : OplVoice) (i : BitVec 8) : (s.programVoice o i).timbre = some i := by
  unfold State.programVoice
  split
  · assumption
  · rfl

/-- Programming sets the timbre and the levels only, so it commutes with the key-on bit. -/
theorem State.programVoice_keyon (s : State) (o : OplVoice) (i : BitVec 8) (keyon : Bool) :
    s.programVoice { o with keyon := keyon } i = { s.programVoice o i with keyon := keyon } := by
  unfold State.programVoice
  dsimp only
  split <;> rfl

/-- Programming leaves the note of the voice. -/
theorem State.programVoice_note (s : State) (o : OplVoice) (i : BitVec 8) :
    (s.programVoice o i).active = o.active ∧ (s.programVoice o i).channel = o.channel ∧
      (s.programVoice o i).key = o.key ∧ (s.programVoice o i).velocity = o.velocity := by
  unfold State.programVoice
  split <;> exact ⟨rfl, rfl, rfl, rfl⟩

/-- The timbre step of a `NOTEON` (44_opl_allocator.md R257): the eleven writes only when the timbre differs. -/
theorem State.withVoice_program (s : State) (k : Fin 9) (o : OplVoice) (w : List (Byte × Byte)) (i : BitVec 8) :
    (if ((s.withVoice k o w).ovoices.get k).timbre = some i then s.withVoice k o w
      else (s.withVoice k o w).setVoiceTimbre k i) =
      s.withVoice k (s.programVoice o i) (w ++ if o.timbre = some i then [] else s.timbreWrites k i) := by
  rw [State.withVoice_get_same, State.programVoice]
  split
  · rw [List.append_nil]
  · rw [State.setVoiceTimbre_eq, State.withVoice_get_same, loudness_eq_ofNat, loudness_eq_ofNat,
      ← State.withVoice_withVoice]
    rfl

/-- The level writes of voice `k` were it `o` (45_fm_register_mapper.md R298). -/
def State.levelWrites (s : State) (k : Fin 9) (o : OplVoice) (i : BitVec 8) : List (Byte × Byte) :=
  State.volumeWrites { s with ovoices := s.ovoices.set k o } k i

/-- The level writes depend on that voice alone among the nine (45_fm_register_mapper.md R298). -/
theorem State.volumeWrites_eq_levelWrites (s : State) (ov : Vector OplVoice 9) (log : List (Byte × Byte)) (k : Fin 9)
    (i : BitVec 8) : State.volumeWrites { s with ovoices := ov, oplw := log } k i = s.levelWrites k (ov.get k) i := by
  simp only [State.levelWrites, State.volumeWrites, Vector.get_set_same]
  rfl

/-- The level writes do not depend on the key-on bit (45_fm_register_mapper.md R298). -/
theorem State.levelWrites_keyon (s : State) (k : Fin 9) (o : OplVoice) (i : BitVec 8) (keyon : Bool) :
    s.levelWrites k { o with keyon := keyon } i = s.levelWrites k o i := by
  simp only [State.levelWrites, State.volumeWrites, Vector.get_set_same]
  rfl

/-- `SetVoiceVolume(k)` of a programmed voice (45_fm_register_mapper.md R298). -/
theorem State.setVoiceVolume_of_timbre {s : State} {k : Fin 9} {i : BitVec 8} (h : (s.ovoices.get k).timbre = some i) :
    s.setVoiceVolume k = s.withVoice k (s.ovoices.get k) (s.volumeWrites k i) := by
  rw [State.withVoice, Vector.set_get_self, State.setVoiceVolume, h]

/-- The voice `o` at the pitch of its note, for timbre `i` (45_fm_register_mapper.md R300). -/
def State.tuned (s : State) (o : OplVoice) (i : BitVec 8) : OplVoice := { o with pitch := s.voicePitch o i }

/-- `SetVoicePitch(k)` of a programmed voice (45_fm_register_mapper.md R300). -/
theorem State.setVoicePitch_of_timbre {s : State} {k : Fin 9} {i : BitVec 8} (h : (s.ovoices.get k).timbre = some i) :
    s.setVoicePitch k = s.withVoice k (s.tuned (s.ovoices.get k) i)
      (pitchPairs k (s.ovoices.get k).keyon (s.voicePitch (s.ovoices.get k) i)) := by
  rcases s.setVoicePitch_cases k with ⟨j, hj, hs⟩ | ⟨hnone, -⟩
  · obtain rfl : j = i := Option.some.inj (hj.symm.trans h)
    rw [hs, pitch_writes_eq]
    rfl
  · exact absurd (hnone.symm.trans h) (by simp)

/-- The level step of a `NOTEON` (44_opl_allocator.md R257). -/
theorem State.withVoice_volume {s : State} {k : Fin 9} {o : OplVoice} {w : List (Byte × Byte)} {i : BitVec 8}
    (h : o.timbre = some i) :
    (s.withVoice k o w).setVoiceVolume k =
      s.withVoice k o (w ++ s.levelWrites k o i) := by
  have hwrites : (s.withVoice k o w).volumeWrites k i = s.levelWrites k o i := by
    rw [State.withVoice, State.volumeWrites_eq_levelWrites, Vector.get_set_same]
  rw [State.setVoiceVolume_of_timbre (i := i) (by rw [State.withVoice_get_same, h]), State.withVoice_get_same,
    State.withVoice_withVoice, hwrites]

/-- The frequency step of a `NOTEON` (44_opl_allocator.md R257). -/
theorem State.withVoice_pitch {s : State} {k : Fin 9} {o : OplVoice} {w : List (Byte × Byte)} {i : BitVec 8}
    (h : o.timbre = some i) :
    (s.withVoice k o w).setVoicePitch k =
      s.withVoice k (s.tuned o i) (w ++ pitchPairs k o.keyon (s.voicePitch o i)) := by
  rw [State.setVoicePitch_of_timbre (i := i) (by rw [State.withVoice_get_same, h]), State.withVoice_get_same,
    State.withVoice_withVoice]
  rfl

/-! ### Starting a note (44_opl_allocator.md R257) -/

/-- The voice `o` claimed for a note, its key on or not yet (44_opl_allocator.md R257). -/
def OplVoice.claimed (o : OplVoice) (ch : BitVec 4) (key vel : BitVec 7) (keyon : Bool) : OplVoice :=
  { o with active := true, channel := ch, key := key, velocity := vel, keyon := keyon }

/-- The voice that starts to sound on `o` (44_opl_allocator.md R257), its pitch still to be computed. -/
def State.noteVoice (s : State) (o : OplVoice) (ch : BitVec 4) (key vel : BitVec 7) (tim : BitVec 8) : OplVoice :=
  s.programVoice (o.claimed ch key vel true) tim

/-- Key-on is the last step before the pitch, and it comes to the same as claiming the voice with its key on. -/
theorem State.noteVoice_eq (s : State) (o : OplVoice) (ch : BitVec 4) (key vel : BitVec 7) (tim : BitVec 8)
    (keyon : Bool) :
    { s.programVoice (o.claimed ch key vel keyon) tim with keyon := true } = s.noteVoice o ch key vel tim :=
  (s.programVoice_keyon (o.claimed ch key vel keyon) tim true).symm

/-- The note of the started voice. -/
theorem State.noteVoice_note (s : State) (o : OplVoice) (ch : BitVec 4) (key vel : BitVec 7) (tim : BitVec 8) :
    OplVoice.Sounds ch key (s.noteVoice o ch key vel tim) ∧ (s.noteVoice o ch key vel tim).velocity = vel ∧
      (s.noteVoice o ch key vel tim).keyon = true ∧ (s.noteVoice o ch key vel tim).timbre = some tim := by
  obtain ⟨hactive, hch, hkey, hvel⟩ := s.programVoice_note (o.claimed ch key vel true) tim
  exact ⟨⟨hactive, hch, hkey⟩, hvel, congrArg OplVoice.keyon (s.noteVoice_eq o ch key vel tim true).symm,
    s.programVoice_timbre _ tim⟩

/-- The writes of a note that starts on voice `k`: key-off if it still sounds, timbre if it differs, level, frequency. -/
def State.noteWrites (s : State) (k : Fin 9) (ch : BitVec 4) (key vel : BitVec 7) (tim : BitVec 8) :
    List (Byte × Byte) :=
  let o := s.ovoices.get k
  let started := s.noteVoice o ch key vel tim
  (if o.active then [keyOffPair k o] else []) ++ (if o.timbre = some tim then [] else s.timbreWrites k tim) ++
    s.levelWrites k started tim ++
    pitchPairs k true (s.voicePitch started tim)

/-- A started note (44_opl_allocator.md R257), step by step: each step is work on voice `k`. -/
theorem State.startNote_eq_withVoice (s : State) (k : Fin 9) (ch : BitVec 4) (key vel : BitVec 7) (tim : BitVec 8) :
    s.startNote k ch key vel tim =
      s.withVoice k
        (s.tuned (s.noteVoice (s.ovoices.get k) ch key vel tim) tim)
        (s.noteWrites k ch key vel tim) := by
  unfold State.startNote State.noteWrites
  extract_lets s1 o1 s2 s3 s4 o4 s5 o started
  obtain ⟨keyon, h2⟩ : ∃ keyon, s2 = s.withVoice k (o.claimed ch key vel keyon)
      (if o.active then [keyOffPair k o] else []) := by
    unfold s2 o1 s1
    split
    · refine ⟨false, ?_⟩
      rw [State.keyOff_eq_withVoice, State.withVoice_setOvoice, State.withVoice_get_same]
      rfl
    · exact ⟨o.keyon, State.setOvoice_eq_withVoice s k _⟩
  generalize (if o.active then [keyOffPair k o] else []) = released at h2 ⊢
  have h3 : s3 = s.withVoice k (s.programVoice (o.claimed ch key vel keyon) tim)
      (released ++ if o.timbre = some tim then [] else s.timbreWrites k tim) := by
    unfold s3
    rw [h2]
    exact s.withVoice_program k (o.claimed ch key vel keyon) released tim
  generalize (released ++ if o.timbre = some tim then [] else s.timbreWrites k tim) = programmed at h3 ⊢
  have hlevel : s.levelWrites k (s.programVoice (o.claimed ch key vel keyon) tim) tim = s.levelWrites k started tim := by
    rw [← State.levelWrites_keyon s k _ tim true, State.noteVoice_eq]
  have h4 : s4 = s.withVoice k (s.programVoice (o.claimed ch key vel keyon) tim)
      (programmed ++ s.levelWrites k started tim) := by
    unfold s4
    rw [h3, State.withVoice_volume (s.programVoice_timbre _ tim), hlevel]
  have h5 : s5 = s.withVoice k started
      (programmed ++ s.levelWrites k started tim) := by
    unfold s5 o4
    rw [h4, State.withVoice_setOvoice, State.withVoice_get_same, State.noteVoice_eq]
  obtain ⟨-, -, hkeyon, htim⟩ := s.noteVoice_note o ch key vel tim
  rw [h5, State.withVoice_pitch htim, hkeyon]

/-- A note started on `k` when no other voice sounds it sounds on `k` alone (44_opl_allocator.md R268). -/
theorem State.startNote_sounds_iff {s : State} {k : Fin 9} {ch : BitVec 4} {key : BitVec 7}
    (hothers : ∀ j, j ≠ k → ¬OplVoice.Sounds ch key (s.ovoices.get j)) (vel : BitVec 7) (tim : BitVec 8) (j : Fin 9) :
    OplVoice.Sounds ch key ((s.startNote k ch key vel tim).ovoices.get j) ↔ j = k := by
  rw [State.startNote_eq_withVoice]
  by_cases hj : j = k
  · subst hj
    obtain ⟨hsounds, -, -, -⟩ := s.noteVoice_note (s.ovoices.get j) ch key vel tim
    rw [State.withVoice_get_same]
    exact iff_of_true hsounds rfl
  · rw [State.withVoice_ovoices, Vector.get_set_other _ _ (Ne.symm hj)]
    exact iff_of_false (hothers j hj) hj

/-- The velocity of the started note (44_opl_allocator.md R257). -/
theorem State.startNote_velocity (s : State) (k : Fin 9) (ch : BitVec 4) (key vel : BitVec 7) (tim : BitVec 8) :
    ((s.startNote k ch key vel tim).ovoices.get k).velocity = vel := by
  obtain ⟨-, hvel, -, -⟩ := s.noteVoice_note (s.ovoices.get k) ch key vel tim
  rw [State.startNote_eq_withVoice, State.withVoice_get_same]
  exact hvel

/-- Starting a note leaves `TB_VALID` as it is. -/
theorem State.startNote_tbValid (s : State) (k : Fin 9) (ch : BitVec 4) (key vel : BitVec 7) (tim : BitVec 8) :
    (s.startNote k ch key vel tim).tbValid = s.tbValid := by
  rw [State.startNote_eq_withVoice, State.withVoice_tbValid]

/-! ### The scans (44_opl_allocator.md R251, R252) -/

/-- A scan finds a voice exactly when that is the first with the property. -/
theorem State.firstSlot_eq_some_iff_firstOpl (s : State) {p : OplVoice → Bool} {P : OplVoice → Prop}
    (hp : ∀ o, p o = true ↔ P o) (k : Fin 9) : s.firstSlot p = some k ↔ s.FirstOpl P k := by
  rw [State.firstSlot_eq_some, hp]
  exact and_congr_right fun _ => forall₂_congr fun j _ => by rw [← hp, Bool.not_eq_true]

/-- A scan finds nothing exactly when no voice has the property. -/
theorem State.firstSlot_eq_none_iff_noOpl (s : State) {p : OplVoice → Bool} {P : OplVoice → Prop}
    (hp : ∀ o, p o = true ↔ P o) : s.firstSlot p = none ↔ s.NoOpl P := by
  rw [State.firstSlot_eq_none]
  exact forall_congr' fun k => by rw [← hp, Bool.not_eq_true]

/-- The condition of `FindVoice` (44_opl_allocator.md R251). -/
theorem OplVoice.sounds_iff (ch : BitVec 4) (key : BitVec 7) (o : OplVoice) :
    (o.active && o.channel == ch && o.key == key) = true ↔ OplVoice.Sounds ch key o := by
  simp only [Bool.and_eq_true, beq_iff_eq, and_assoc]

/-- `FindVoice` answers the first voice that sounds the note (44_opl_allocator.md R251). -/
theorem State.findVoice_eq_some_iff (s : State) (ch : BitVec 4) (key : BitVec 7) (k : Fin 9) :
    s.findVoice ch key = some k ↔ s.FirstOpl (OplVoice.Sounds ch key) k :=
  s.firstSlot_eq_some_iff_firstOpl (OplVoice.sounds_iff ch key) k

/-- `FindVoice` answers nothing when no voice sounds the note (44_opl_allocator.md R251). -/
theorem State.findVoice_eq_none_iff (s : State) (ch : BitVec 4) (key : BitVec 7) :
    s.findVoice ch key = none ↔ s.NoOpl (OplVoice.Sounds ch key) :=
  s.firstSlot_eq_none_iff_noOpl (OplVoice.sounds_iff ch key)

/-- `AllocateVoice` answers the one voice the five steps choose (44_opl_allocator.md R252). -/
theorem State.oplChoice_iff (s : State) (ch : BitVec 4) (tim : BitVec 8) (k : Fin 9) :
    s.OplChoice ch tim k ↔ s.allocateVoice ch tim = k := by
  have hidleWith (o : OplVoice) :
      (!o.active && o.timbre == some tim) = true ↔ o.active = false ∧ o.timbre = some tim := by
    rw [Bool.and_eq_true, Bool.not_eq_true', beq_iff_eq]
  have hidle (o : OplVoice) : (!o.active) = true ↔ o.active = false := by rw [Bool.not_eq_true']
  have hsame (o : OplVoice) : (o.channel == ch) = true ↔ o.channel = ch := beq_iff_eq
  have hperc (o : OplVoice) : (o.channel == 9) = true ↔ o.channel = 9 := beq_iff_eq
  have hnone : s.NoOpl (fun o => o.active = false) → s.NoOpl fun o => o.active = false ∧ o.timbre = some tim :=
    fun h j hj => h j hj.1
  unfold State.OplChoice State.allocateVoice
  dsimp only
  rw [← s.firstSlot_eq_some_iff_firstOpl hidleWith, ← s.firstSlot_eq_some_iff_firstOpl hidle,
    ← s.firstSlot_eq_some_iff_firstOpl hsame, ← s.firstSlot_eq_some_iff_firstOpl hperc]
  rw [← s.firstSlot_eq_none_iff_noOpl hidleWith, ← s.firstSlot_eq_none_iff_noOpl hidle] at hnone ⊢
  rw [← s.firstSlot_eq_none_iff_noOpl hsame, ← s.firstSlot_eq_none_iff_noOpl hperc]
  generalize s.firstSlot (fun o => !o.active && o.timbre == some tim) = idleWith at hnone ⊢
  generalize s.firstSlot (fun o => !o.active) = idle at hnone ⊢
  generalize s.firstSlot (fun o => o.channel == ch) = same
  generalize s.firstSlot (fun o => o.channel == 9) = perc
  cases idle with
  | none =>
    obtain rfl := hnone rfl
    cases same with
    | none =>
      cases perc with
      | none => simp [eq_comm]
      | some k => simp
    | some k => simp
  | some k =>
    cases idleWith with
    | none => simp
    | some k => simp

/-- The voice of a `NOTEON` (44_opl_allocator.md R257): the one that sounds the note, else the one the steps choose. -/
theorem State.noteSlot_eq {s : State} {ch : BitVec 4} {key : BitVec 7} {k : Fin 9}
    (h : s.FirstOpl (OplVoice.Sounds ch key) k ∨
      (s.NoOpl (OplVoice.Sounds ch key) ∧ s.OplChoice ch (s.noteTimbre ch key) k)) : s.noteSlot ch key = k := by
  unfold State.noteSlot
  rcases h with hfirst | ⟨hnone, hchoice⟩
  · rw [(s.findVoice_eq_some_iff ch key k).2 hfirst, Option.getD_some]
  · rw [(s.findVoice_eq_none_iff ch key).2 hnone, Option.getD_none, (s.oplChoice_iff ch _ k).1 hchoice]

/-- When at most one voice sounds the note, none but the voice of its `NOTEON` does (44_opl_allocator.md R268). -/
theorem State.noteSlot_others_silent {s : State} {ch : BitVec 4} {key : BitVec 7}
    (hunique : ∀ j k : Fin 9, OplVoice.Sounds ch key (s.ovoices.get j) → OplVoice.Sounds ch key (s.ovoices.get k) → j = k)
    (j : Fin 9) (hj : j ≠ s.noteSlot ch key) : ¬OplVoice.Sounds ch key (s.ovoices.get j) := by
  intro hsounds
  cases hfind : s.findVoice ch key with
  | none => exact (s.findVoice_eq_none_iff ch key).1 hfind j hsounds
  | some k =>
    have hfirst := (s.findVoice_eq_some_iff ch key k).1 hfind
    exact hj ((hunique j k hsounds hfirst.1).trans (State.noteSlot_eq (.inl hfirst)).symm)

/-! ### The note commands (44_opl_allocator.md R253, R254, R257, R258) -/

/-- `OVFIND` answers the first voice that sounds the note (44_opl_allocator.md R253). -/
theorem exec_ovfind_of_first {s : State} {ch : BitVec 4} {key : BitVec 7} {k : Fin 9}
    (h : s.FirstOpl (OplVoice.Sounds ch key) k) : exec (.ovfind ch key) s = .next (s.complete (slotWord k)) := by
  change execOvfind ch key s = _
  rw [execOvfind, (s.findVoice_eq_some_iff ch key k).2 h]

/-- `OVFIND` of a note that no voice sounds answers 0xFFFFFFFF (44_opl_allocator.md R253). -/
theorem exec_ovfind_of_none {s : State} {ch : BitVec 4} {key : BitVec 7} (h : s.NoOpl (OplVoice.Sounds ch key)) :
    exec (.ovfind ch key) s = .next (s.complete 0xFFFFFFFF) := by
  change execOvfind ch key s = _
  rw [execOvfind, (s.findVoice_eq_none_iff ch key).2 h]

/-- `OVALLOC` answers the allocator's voice and claims nothing (44_opl_allocator.md R254). -/
theorem exec_ovalloc (s : State) (ch : BitVec 4) (tim : BitVec 8) :
    exec (.ovalloc ch tim) s = .next (s.complete (slotWord (s.allocateVoice ch tim))) := rfl

/-- `NOTEOFF` ignores the release velocity (44_opl_allocator.md R258). -/
theorem exec_noteoff (s : State) (ch : BitVec 4) (key vel : BitVec 7) :
    exec (.noteoff ch key vel) s = .next (s.noteOff ch key) := rfl

/-- A `NOTEON` with velocity 0 is a Note Off (44_opl_allocator.md R257). -/
theorem exec_noteon_zero (s : State) (ch : BitVec 4) (key : BitVec 7) :
    exec (.noteon ch key 0) s = .next (s.noteOff ch key) := rfl

/-- A `NOTEON` with a velocity and a loaded bank starts the note on its voice (44_opl_allocator.md R257). -/
theorem exec_noteon_of_loaded {s : State} {vel : BitVec 7} (hvel : vel ≠ 0) (hbank : s.tbValid = true) (ch : BitVec 4)
    (key : BitVec 7) :
    exec (.noteon ch key vel) s =
      .next ((s.startNote (s.noteSlot ch key) ch key vel (s.noteTimbre ch key)).complete
        (slotWord (s.noteSlot ch key))) :=
  (if_neg hvel).trans (if_pos hbank)

/-- Settles O53: the scans answer the first voice, and the five steps are what the chain of scans computes. -/
theorem ovfindAndOvallocResult : Obligations.OvfindAndOvallocResult := by
  intro s ch key tim
  refine ⟨fun k hk => exec_ovfind_of_first hk, fun hnone => exec_ovfind_of_none hnone,
    ⟨s.allocateVoice ch tim, (s.oplChoice_iff ch tim _).2 rfl⟩, fun k hk => ?_⟩
  rw [exec_ovalloc, (s.oplChoice_iff ch tim k).1 hk]
  rfl

/-- Settles O54, by what the scan for the note finds. -/
theorem noteoffResult : Obligations.NoteoffResult := by
  intro s ch key vel
  rw [exec_noteon_zero, exec_noteoff, State.noteOff]
  refine ⟨fun k hk => ?found, fun hnone => ?silent, rfl⟩
  case found =>
    rw [(s.findVoice_eq_some_iff ch key k).2 hk]
    change Host.Outcome.next ((s.release k).complete (slotWord k)) = _
    rw [State.release_eq_withVoice]
    rfl
  case silent =>
    rw [(s.findVoice_eq_none_iff ch key).2 hnone]
    rfl

/-- Settles O55: the steps of a note, on the voice that the scans give. -/
theorem noteonResult : Obligations.NoteonResult := by
  intro s ch key vel k hvel hbank tim hk o t claimed programmed p
  have htim : s.noteTimbre ch key = tim := s.noteTimbre_eq ch key
  have hslot : s.noteSlot ch key = k := State.noteSlot_eq (by rw [htim]; exact hk)
  rw [exec_noteon_of_loaded hvel hbank, hslot, htim, State.startNote_eq_withVoice, State.withVoice, State.noteWrites,
    ← List.append_assoc, ← List.append_assoc, ← List.append_assoc]
  rfl

/-- A `NOTEON` of a note that no voice but its own sounds leaves it on that voice alone, and answers the voice
(44_opl_allocator.md R257, R268). -/
theorem noteon_next_sounds {s t : State} {ch : BitVec 4} {key vel : BitVec 7} {k : Fin 9} (hvel : vel ≠ 0)
    (hbank : s.tbValid = true) (hslot : s.noteSlot ch key = k)
    (hothers : ∀ j, j ≠ k → ¬OplVoice.Sounds ch key (s.ovoices.get j)) (h : exec (.noteon ch key vel) s = .next t) :
    (∀ j, OplVoice.Sounds ch key (t.ovoices.get j) ↔ j = k) ∧ (t.ovoices.get k).velocity = vel ∧ t.res = slotWord k ∧
      t.tbValid = true := by
  rw [exec_noteon_of_loaded hvel hbank, hslot] at h
  obtain rfl := Host.Outcome.next.inj h
  rw [State.complete_ovoices, State.complete_res, State.complete_tbValid, State.startNote_tbValid]
  exact ⟨State.startNote_sounds_iff hothers vel _, State.startNote_velocity s k ch key vel _, rfl, hbank⟩

/-- Settles O56: the first `NOTEON` leaves its voice the only one that sounds the note, so the second finds it. -/
theorem repeatedNoteonUsesOneVoice : Obligations.RepeatedNoteonUsesOneVoice := by
  intro s t u ch key v1 v2 hv1 hv2 hbank hunique ht hu
  obtain ⟨hfirst, -, hres, hbank'⟩ := noteon_next_sounds hv1 hbank rfl (State.noteSlot_others_silent hunique) ht
  generalize s.noteSlot ch key = k at hfirst hres
  have hslot : t.noteSlot ch key = k :=
    State.noteSlot_eq (.inl ⟨(hfirst k).2 rfl, fun j hj hsounds => hj.ne ((hfirst j).1 hsounds)⟩)
  obtain ⟨hsecond, hvel, hres', -⟩ :=
    noteon_next_sounds hv2 hbank' hslot (fun j hj hsounds => hj ((hfirst j).1 hsounds)) hu
  exact ⟨k, (hsecond k).2 rfl, hvel, hres'.trans hres.symm, hres', fun j => (hsecond j).1⟩

/-! ### Passes over the voices of a channel, and over all (44_opl_allocator.md R260 to R267) -/

/-- One item for each entry that is kept is the list of the kept entries' items. -/
theorem flatMap_if_singleton {α β : Type} (c : α → Bool) (f : α → β) (l : List α) :
    (l.flatMap fun a => if c a then [f a] else []) = (l.filter c).map f := by
  induction l with
  | nil => rfl
  | cons a l ih => cases h : c a <;> simp [h, ih]

/-- A pass that releases the voices that meet a condition (44_opl_allocator.md R262, R267). -/
theorem State.forOplSlots_release (s : State) (c : OplVoice → Bool) :
    s.forOplSlots (fun t k => if c (t.ovoices.get k) then t.release k else t) =
      { s with
        ovoices := Vector.ofFn fun k =>
          if c (s.ovoices.get k) then { s.ovoices.get k with keyon := false, active := false } else s.ovoices.get k
        oplw := s.oplw ++
          (oplSlots.filter fun k => c (s.ovoices.get k)).map fun k => keyOffPair k (s.ovoices.get k) } := by
  rw [State.forOplSlots_if_eq s c State.release (fun _ o => { o with keyon := false, active := false })
    (fun k o => [keyOffPair k o]) fun ov log k _ => State.release_eq_withVoice _ k, flatMap_if_singleton]

/-- A pass that rewrites the levels of the programmed voices that meet a condition (44_opl_allocator.md R260). -/
theorem State.forOplSlots_volume (s : State) (c : OplVoice → Bool) :
    s.forOplSlots (fun t k => if c (t.ovoices.get k) then t.setVoiceVolume k else t) =
      { s with
        oplw := s.oplw ++ oplSlots.flatMap fun k =>
          if c (s.ovoices.get k) then
            (s.ovoices.get k).timbre.elim [] fun i => s.levelWrites k (s.ovoices.get k) i
          else [] } := by
  rw [State.forOplSlots_if_eq s c State.setVoiceVolume (fun _ o => o)
    (fun k o => o.timbre.elim [] fun i => s.levelWrites k o i) fun ov log k _ => ?body]
  case body =>
    rw [Vector.set_get_self]
    rcases State.setVoiceVolume_cases { s with ovoices := ov, oplw := log } k with ⟨i, hi, h⟩ | ⟨hi, h⟩
    · rw [h, show (ov.get k).timbre = some i from hi, State.volumeWrites_eq_levelWrites]
      rfl
    · rw [h, show (ov.get k).timbre = none from hi, Option.elim_none, List.append_nil]
  have hsame : (Vector.ofFn fun k => if c (s.ovoices.get k) then s.ovoices.get k else s.ovoices.get k) = s.ovoices :=
    Vector.ext_get fun k => by rw [Vector.get_ofFn', ite_self]
  rw [hsame]

/-- A pass that rewrites the frequencies of the programmed voices that meet a condition (44_opl_allocator.md R264). -/
theorem State.forOplSlots_pitch (s : State) (c : OplVoice → Bool) :
    s.forOplSlots (fun t k => if c (t.ovoices.get k) then t.setVoicePitch k else t) =
      { s with
        ovoices := Vector.ofFn fun k =>
          if c (s.ovoices.get k) then
            (s.ovoices.get k).timbre.elim (s.ovoices.get k) fun i => s.tuned (s.ovoices.get k) i
          else s.ovoices.get k
        oplw := s.oplw ++ oplSlots.flatMap fun k =>
          if c (s.ovoices.get k) then
            (s.ovoices.get k).timbre.elim [] fun i =>
              pitchPairs k (s.ovoices.get k).keyon (s.voicePitch (s.ovoices.get k) i)
          else [] } := by
  refine State.forOplSlots_if_eq s c State.setVoicePitch (fun _ o => o.timbre.elim o fun i => s.tuned o i)
    (fun k o => o.timbre.elim [] fun i => pitchPairs k o.keyon (s.voicePitch o i)) fun ov log k _ => ?_
  cases hi : (ov.get k).timbre with
  | some i => exact State.setVoicePitch_of_timbre (s := { s with ovoices := ov, oplw := log }) hi
  | none =>
    rw [Option.elim_none, Option.elim_none, Vector.set_get_self, List.append_nil, State.setVoicePitch]
    simp only [hi]

/-- Settles O57: one pass for the levels of a channel, one for its releases; the other numbers store or ignore. -/
theorem controllerAndProgchangeResult : Obligations.ControllerAndProgchangeResult := by
  intro s ch val c sounding s7
  refine ⟨fun _ => ?volume, rfl, ?allOff, fun num h7 h10 h123 => ?ignored, 0#1 ++ val, toNat_zero_append 1 val, rfl⟩
  case volume =>
    change Host.Outcome.next ((s7.forOplSlots _).complete 0) = _
    rw [State.forOplSlots_volume s7 fun o => o.active && o.channel == ch]
    refine congrArg (fun ws => Host.Outcome.next { s7 with oplw := s.oplw ++ ws, res := 0, err := 0 })
      (List.flatMap_congr fun k _ => ?_)
    change (if sounding k then (s.ovoices.get k).timbre.elim [] (s7.levelWrites k (s.ovoices.get k)) else []) = _
    cases sounding k with
    | false => rfl
    | true =>
      cases (s.ovoices.get k).timbre with
      | none => rfl
      | some tim => exact (s7.volumeWrites_eq_levelWrites s.ovoices s.oplw k tim).symm
  case allOff =>
    change Host.Outcome.next ((s.forOplSlots _).complete 0) = _
    rw [State.forOplSlots_release s fun o => o.active && o.channel == ch]
    rfl
  case ignored => exact (if_neg h7).trans ((if_neg h10).trans (if_neg h123))

/-- Settles O58: the channel is written first, and the pass over its voices computes from it. -/
theorem pitchbendResult : Obligations.PitchbendResult := by
  intro s ch lsb msb sounding _
  refine ⟨msb ++ lsb, by rw [toNat_append_eq_add, Nat.mul_comm], ?_⟩
  extract_lets c s'
  change Host.Outcome.next ((s'.forOplSlots _).complete 0) = _
  rw [State.forOplSlots_pitch s' fun o => o.active && o.channel == ch]
  refine congrArg₂ (fun ov ws => Host.Outcome.next { s' with ovoices := ov, oplw := s.oplw ++ ws, res := 0, err := 0 })
    (congrArg Vector.ofFn (funext fun k => ?voice)) (List.flatMap_congr fun k _ => ?writes)
  case voice =>
    change (if sounding k then (s.ovoices.get k).timbre.elim _ (s'.tuned (s.ovoices.get k)) else _) = _
    cases sounding k with
    | false => rfl
    | true => cases (s.ovoices.get k).timbre <;> rfl
  case writes =>
    change (if sounding k then (s.ovoices.get k).timbre.elim [] _ else []) = _
    cases sounding k with
    | false => rfl
    | true => cases (s.ovoices.get k).timbre <;> rfl

/-- Settles O60: the pass releases the active voices, and the count is the length of their list. -/
theorem oplalloffResult : Obligations.OplalloffResult := by
  intro s active
  change Host.Outcome.next ((s.forOplSlots _).complete _) = _
  rw [State.forOplSlots_release s (·.active), List.countP_eq_length_filter]
  rfl

/-- Settles O59: the pass writes and resets each voice whatever it held. -/
theorem oplresetResult : Obligations.OplresetResult := by
  intro s
  refine ⟨Vector.ofFn fun _ => OplVoice.reset, Vector.replicate 16 (Channel.reset s.cfg), ?_, fun k => ?_, fun n => ?_⟩
  · change Host.Outcome.next (State.complete { s.forOplSlots _ with chans := _ } 0) = _
    rw [State.forOplSlots_eq s _ (fun _ _ => OplVoice.reset) (fun k _ => [(voiceReg 0xB0 k, 0)]) fun _ _ _ => rfl]
    rfl
  · rw [Vector.get_ofFn']
    rfl
  · rw [Vector.get_eq_getElem, Vector.getElem_replicate]
    rfl

end Sys2Proof.Machine

/-! ## The timbre bank and the FM register mapper (45_fm_register_mapper.md) -/

namespace Sys2Proof.Machine

/-! ### The commands on one programmed voice (45_fm_register_mapper.md R295, R297, R299) -/

/-- An inline `vo` of 0..8 names that OPL voice (30_encoding.md R108). -/
theorem voSlot_of_val {vo : BitVec 4} {k : Fin 9} (hk : k.val = vo.toNat) : voSlot vo = some k := by
  rcases voSlot_cases vo with ⟨j, hslot, hj⟩ | ⟨hlarge, -⟩
  · rw [hslot, Fin.ext (hj.trans hk.symm)]
  · omega

section
variable {s : State} {vo : BitVec 4} {k : Fin 9}

/-- `OVTIMBRE` with a loaded bank (45_fm_register_mapper.md R295). -/
theorem exec_ovtimbre_of_loaded (hk : k.val = vo.toNat) (hbank : s.tbValid = true) (tim : BitVec 8) :
    exec (.ovtimbre vo tim) s = .next ((s.setVoiceTimbre k tim).complete 0) := by
  change execOvtimbre vo tim s = _
  rw [execOvtimbre, voSlot_of_val hk]
  exact if_pos hbank

/-- `OVVOLUME` of a programmed voice (45_fm_register_mapper.md R297). -/
theorem exec_ovvolume_of_programmed (hk : k.val = vo.toNat) (h : s.programmed k = true) :
    exec (.ovvolume vo) s = .next ((s.setVoiceVolume k).complete 0) := by
  change execOvvolume vo s = _
  rw [execOvvolume, voSlot_of_val hk]
  exact if_pos h

/-- `OVPITCH` of a programmed voice answers the pitch it stores (45_fm_register_mapper.md R299). -/
theorem exec_ovpitch_of_programmed (hk : k.val = vo.toNat) (h : s.programmed k = true) :
    exec (.ovpitch vo) s =
      .next ((s.setVoicePitch k).complete (0#19 ++ ((s.setVoicePitch k).ovoices.get k).pitch)) := by
  change execOvpitch vo s = _
  rw [execOvpitch, voSlot_of_val hk]
  exact if_pos h

end

/-! ### The writes of a timbre (45_fm_register_mapper.md R294, R296) -/

/-- A modulator's register is its base plus the voice's offset (45_fm_register_mapper.md R294). -/
theorem State.add_modOffset (s : State) (base : Nat) (k : Fin 9) :
    BitVec.ofNat 8 base + s.modOffset k = BitVec.ofNat 8 (base + s.cfg.modOff.getD k 0) :=
  (BitVec.ofNat_add base _).symm

/-- A carrier's register is 3 above its modulator's (45_fm_register_mapper.md R294). -/
theorem State.add_carOffset (s : State) (base : Nat) (k : Fin 9) :
    BitVec.ofNat 8 base + s.carOffset k = BitVec.ofNat 8 (base + (s.cfg.modOff.getD k 0 + 3)) :=
  (BitVec.ofNat_add base _).symm

/-- Settles O49: the writes and the stored levels of `SetVoiceTimbre`, their registers and loudnesses as numbers. -/
theorem ovtimbreResult : Obligations.OvtimbreResult := by
  intro s vo tim k hk hbank t mo co lvl ksl
  rw [exec_ovtimbre_of_loaded hk hbank, State.setVoiceTimbre_eq, loudness_eq_ofNat, loudness_eq_ofNat,
    State.timbreWrites]
  simp only [co, mo, ← State.add_modOffset, ← State.add_carOffset, ← voiceReg_ofNat]
  rfl

/-! ### The levels of a voice (45_fm_register_mapper.md R298, R301) -/

/-- The effective velocity is a velocity (45_fm_register_mapper.md R298). -/
theorem effVelocity_le (velocity : BitVec 7) (sens : Byte) : effVelocity velocity sens ≤ 127 := by
  have hbounds := clamp_bounds (v := velocity.toNat + sens.toInt) (show (0 : Int) ≤ 127 by omega)
  unfold effVelocity
  omega

/-- The loudness of an operator is at most 62 (45_fm_register_mapper.md R298): `63 * 255 * 127 < 63 * 2 ^ 15`, and the
music volume scales by at most 1. -/
theorem scaledLevel_le (lvl : BitVec 6) {vel : Nat} (hvel : vel ≤ 127) (volume : BitVec 7) (musicVol : BitVec 8) :
    scaledLevel lvl vel volume musicVol ≤ 62 := by
  have hlvl := lvl.isLt
  have hvolume := volume.isLt
  have hmusic := musicVol.isLt
  have hproduct : lvl.toNat * (vel + 0x80) * volume.toNat ≤ 63 * 255 * 127 := by gcongr <;> omega
  have hloud : lvl.toNat * (vel + 0x80) * volume.toNat / 2 ^ 15 ≤ 62 := by omega
  have hscaled : lvl.toNat * (vel + 0x80) * volume.toNat / 2 ^ 15 * (musicVol.toNat + 1) ≤ 62 * 256 := by
    gcongr
    omega
  unfold scaledLevel
  omega

/-- Settles O50: the level writes of `SetVoiceVolume`; a velocity of at most 127 bounds the loudness. -/
theorem ovvolumeResult : Obligations.OvvolumeResult := by
  intro s vo k tim hk hbank htim o t mo vel volume loud
  have hvel : vel ≤ 127 := effVelocity_le o.velocity (t 12)
  refine ⟨scaledLevel_le o.lvlCar hvel _ s.musicVol, scaledLevel_le o.lvlMod hvel _ s.musicVol, ?_⟩
  rw [exec_ovvolume_of_programmed hk ((s.programmed_iff k).2 ⟨hbank, tim, htim⟩), State.setVoiceVolume_of_timbre htim,
    State.withVoice, Vector.set_get_self, State.volumeWrites]
  simp only [mo, ← State.add_modOffset, ← State.add_carOffset]
  rfl

/-- Settles O52: one pass for the levels of the active voices, at the new volume. -/
theorem setmusicvolResult : Obligations.SetmusicvolResult := by
  intro s imm8 _ s'
  change Host.Outcome.next ((s'.forOplSlots _).complete 0) = _
  rw [State.forOplSlots_volume s' (·.active)]
  refine congrArg (fun ws => Host.Outcome.next { s' with oplw := s.oplw ++ ws, res := 0, err := 0 })
    (List.flatMap_congr fun k _ => ?_)
  change (if (s.ovoices.get k).active then
    (s.ovoices.get k).timbre.elim [] (s'.levelWrites k (s.ovoices.get k)) else []) = _
  cases (s.ovoices.get k).active with
  | false => rfl
  | true =>
    cases (s.ovoices.get k).timbre with
    | none => rfl
    | some tim => exact (s'.volumeWrites_eq_levelWrites s.ovoices s.oplw k tim).symm

/-! ### The pitch of a voice (45_fm_register_mapper.md R300) -/

/-- Each row of F-numbers is in its ranges (93_implementation_defined.md U16). -/
theorem Config.fnumRowOf_ok {c : Config} (h : c.wf = true) (d : BitVec 8) : fnumRowOk (c.fnumRowOf d) = true := by
  unfold Config.wf at h
  simp only [Bool.and_eq_true, List.all_eq_true] at h
  obtain ⟨⟨-, hdefault, hlisted⟩, -⟩ := h
  unfold Config.fnumRowOf
  cases hrow : c.fnumRows.find? fun r => r.1 == d with
  | none => exact hdefault
  | some r => exact hlisted r (List.mem_of_find?_eq_some hrow)

/-- Every F-number fits its 10 bits (45_fm_register_mapper.md R302; 93_implementation_defined.md U16). -/
theorem Config.fnum_lt {c : Config} (h : c.wf = true) (d : BitVec 8) (n : Nat) : c.fnum d n < 2 ^ 10 := by
  obtain ⟨-, hentries⟩ := Bool.and_eq_true_iff.1 (Config.fnumRowOf_ok h d)
  unfold Config.fnum
  by_cases hn : n < (c.fnumRowOf d).length
  · rw [List.getD_eq_getElem _ _ hn]
    exact of_decide_eq_true (List.all_eq_true.1 hentries _ (List.getElem_mem hn))
  · rw [List.getD_eq_default _ _ (not_lt.1 hn)]
    omega

/-- The pitch word as a number (45_fm_register_mapper.md R300). -/
theorem pitchWord_toNat {c : Config} (h : c.wf = true) (detune : BitVec 8) {note : Nat} (hnote : note ≤ 95) :
    (pitchWord c detune note).toNat = note / 12 * 2 ^ 10 + c.fnum detune (note % 12) := by
  have hfnum := Config.fnum_lt h detune (note % 12)
  rw [pitchWord, toNat_append_eq_add, BitVec.toNat_ofNat, BitVec.toNat_ofNat, Nat.mod_eq_of_lt hfnum,
    Nat.mod_eq_of_lt (by omega)]

/-- A word with zeros above a field is the field's number. -/
theorem zero_append_eq_ofNat {m n : Nat} (b : BitVec n) : (0#m ++ b) = BitVec.ofNat (m + n) b.toNat := by
  apply BitVec.eq_of_toNat_eq
  have hfits : b.toNat < 2 ^ (m + n) := b.isLt.trans_le (Nat.pow_le_pow_right two_pos (Nat.le_add_left n m))
  rw [toNat_zero_append, BitVec.toNat_ofNat, Nat.mod_eq_of_lt hfits]

/-- Settles O51: the clamped note is in the octaves that the pitch word holds, and the F-number fits its place. -/
theorem ovpitchResult : Obligations.OvpitchResult := by
  intro s vo k tim hwf hk hbank htim o c transpose note
  have hnote : note ≤ 95 := by
    have hbounds := clamp_bounds (v := s.rawNote o tim) (show (0 : Int) ≤ 95 by omega)
    change (clamp (s.rawNote o tim) 0 95).toNat ≤ 95
    omega
  refine ⟨s.voicePitch o tim, pitchWord_toNat hwf c.detune hnote, ?_⟩
  rw [exec_ovpitch_of_programmed hk ((s.programmed_iff k).2 ⟨hbank, tim, htim⟩), State.setVoicePitch_of_timbre htim,
    State.withVoice_get_same, zero_append_eq_ofNat]
  rfl

/-! ### Loading the bank (45_fm_register_mapper.md R291, R292) -/

/-- `TBLOAD` of 3328 bytes inside the address space (45_fm_register_mapper.md R291). -/
theorem exec_tbload_of_fits {s : State} (h : s.opAddr + 3328 ≤ 2 ^ 32) :
    exec .tbload s = .next (State.complete
      { s.forActiveSlots State.release with
        tb := s.mem.readBytes s.opAddr 3328
        ovoices := (s.forActiveSlots State.release).ovoices.map fun o => { o with timbre := none }
        tbValid := true } 0) := by
  change execTbload s = _
  rw [execTbload, if_neg (not_lt.2 h)]

/-- A voice after the release of the active voices and the loss of its timbre (45_fm_register_mapper.md R291): it is
inactive either way, and an idle one keeps its key-on bit. -/
theorem OplVoice.release_unprogram_eq (o : OplVoice) :
    { (if o.active then { o with keyon := false, active := false } else o : OplVoice) with timbre := none } =
      { o with active := false, keyon := if o.active then false else o.keyon, timbre := none } := by
  obtain ⟨active⟩ := o
  cases active <;> rfl

/-- Byte `j` of timbre `i` of a bank read from `a` (45_fm_register_mapper.md R292). -/
theorem Memory.readBytes_bank (m : Memory) (a : Nat) (i : BitVec 8) {j : Nat} (hj : j < 13) :
    (m.readBytes a 3328)[13 * i.toNat + j]? = some (m.read (a + (13 * i.toNat + j))) := by
  have hi := i.isLt
  have hin : 13 * i.toNat + j < (m.readBytes a 3328).length := by
    rw [Memory.readBytes_length]
    omega
  rw [List.getElem?_eq_getElem hin, Memory.readBytes_getElem]

/-- Settles O48: the pass releases the active voices, and the bank is the bytes read from `x[0]` up. -/
theorem tbloadResult : Obligations.TbloadResult := by
  intro s hfits
  refine ⟨s.mem.readBytes s.opAddr 3328, ?_, Memory.readBytes_length _ _ _, fun i j hj => s.mem.readBytes_bank _ i hj⟩
  rw [exec_tbload_of_fits hfits, State.forActiveSlots, State.forOplSlots_release s (·.active)]
  refine congrArg (fun ov => Host.Outcome.next { s with
    oplw := s.oplw ++ (oplSlots.filter fun k => (s.ovoices.get k).active).map fun k => keyOffPair k (s.ovoices.get k)
    ovoices := ov, tb := s.mem.readBytes s.opAddr 3328, tbValid := true, res := 0, err := 0 })
    (Vector.ext_get fun k => ?_)
  rw [Vector.get_map, Vector.get_ofFn', Vector.get_ofFn']
  exact (s.ovoices.get k).release_unprogram_eq

end Sys2Proof.Machine

/-! ## The system commands and the hints (46_system.md, 44_opl_allocator.md R265) -/

namespace Sys2Proof.Machine

/-! ### `RESET` (46_system.md R331) -/

/-- `RESET` leaves what both resets share: its completion writes what is there already. -/
theorem exec_reset (s : State) : exec .reset s = .next s.cleared :=
  congrArg Host.Outcome.next s.cleared_complete

/-- Settles O15: `State.cleared` has the values of R49 and keeps what R331 excepts. -/
theorem resetCommandResult : Obligations.ResetCommandResult := by
  intro s
  exact ⟨s.cleared, exec_reset s, s.cleared_hasResetValues, s.cleared_x, s.cleared_oplw, s.cleared_cbout, s.cleared_mem,
    s.cleared_cfg, s.cleared_hostq, s.cleared_hostData⟩

/-! ### `CLRERR` and the hints (46_system.md R330, R332) -/

/-- Bit `b` of flags under a mask: it stays set when the mask leaves it out (46_system.md R332). -/
theorem getLsbD_and_not {n b : Nat} (flags mask : BitVec n) (hb : b < n) :
    (flags &&& ~~~mask).getLsbD b = (flags.getLsbD b && !mask.getLsbD b) := by
  rw [BitVec.getLsbD_and, BitVec.getLsbD_not, decide_eq_true hb, Bool.true_and]

/-- A controller number without a meaning is a hint (44_opl_allocator.md R260). -/
theorem exec_controller_ignored {num : BitVec 7} (h7 : num ≠ 7) (h10 : num ≠ 10) (h123 : num ≠ 123) (s : State)
    (ch : BitVec 4) (val : BitVec 7) : exec (.controller ch num val) s = .next (s.complete 0) := by
  obtain ⟨-, -, -, hignored, -⟩ := controllerAndProgchangeResult s ch val
  exact hignored num h7 h10 h123

/-- Settles O25: the hints only complete, and `CLRERR` is bitwise and its old flags read as a number. -/
theorem nopClrerrAndHintsResult : Obligations.NopClrerrAndHintsResult := by
  intro s
  refine ⟨rfl, fun imm8 => ?clrerr, fun _ _ _ => rfl, fun _ _ => rfl,
    fun ch _ val h7 h10 h123 => exec_controller_ignored h7 h10 h123 s ch val⟩
  case clrerr =>
    exact ⟨s.errflags &&& ~~~imm8, 0#24 ++ s.errflags, rfl, toNat_zero_append 24 s.errflags,
      fun _ => getLsbD_and_not s.errflags imm8⟩

end Sys2Proof.Machine

/-! ## Exceptions: which accesses are ignored or refused, which commands fail (60_exceptions.md R370 to R375, R381) -/

namespace Sys2Proof.Machine

/-! ### Register accesses while MDAE is idle (10_state.md R24, R34, 60_exceptions.md R381) -/

/-- A word access may use the multiples of 4 (20_memory.md R71). -/
theorem regAligned_iff {off : BitVec 8} : regAligned off = true ↔ off.toNat % 4 = 0 := beq_iff_eq

/-- A write that is no aligned word is refused (log 10). -/
theorem State.regWrite_of_misaligned {off : BitVec 8} (h : off.toNat % 4 ≠ 0) (s : State) (data : Word) :
    s.regWrite off data = .refused .regAccessNotAlignedWord :=
  if_neg (mt regAligned_iff.1 h)

/-- A read that is no aligned word is refused (log 10). -/
theorem State.regRead_of_misaligned {off : BitVec 8} (h : off.toNat % 4 ≠ 0) (s : State) :
    s.regRead off = .refused .regAccessNotAlignedWord :=
  if_neg (mt regAligned_iff.1 h)

/-- A write to a read-only or reserved register is ignored (60_exceptions.md R381). -/
theorem State.regWrite_ignored {off : BitVec 8} (halign : off.toNat % 4 = 0) (hcmd : off ≠ 0)
    (hoperand : regOperand off = none) (s : State) (data : Word) : s.regWrite off data = .next s := by
  rw [State.regWrite, if_pos (regAligned_iff.2 halign), hoperand]
  exact if_neg hcmd

/-- A write to an operand register stores the word (10_state.md R21). -/
theorem State.regWrite_operand {s : State} {off : BitVec 8} {i : Fin 16} (halign : off.toNat % 4 = 0)
    (hoperand : regOperand off = some i) (hidle : s.busy = false) (data : Word) :
    s.regWrite off data = .next { s with x := s.x.set i data } := by
  rw [State.regWrite, if_pos (regAligned_iff.2 halign), hoperand]
  exact if_neg (by simp [hidle])

/-- A write to `CMD` runs the command (10_state.md R25). -/
theorem State.regWrite_cmd {s : State} (hidle : s.busy = false) (data : Word) :
    s.regWrite 0 data = s.runCommand data := by
  have hwrite : s.regWrite 0 data = s.writeCmd data := rfl
  rw [hwrite, State.writeCmd, hidle, if_neg (by decide)]

/-- A read answers the register's word and changes no register (60_exceptions.md R381). -/
theorem State.regRead_of_idle {s : State} {off : BitVec 8} (halign : off.toNat % 4 = 0) (hidle : s.busy = false) :
    s.regRead off = .next { s with hostData := s.readReg off } := by
  rw [State.regRead, if_pos (regAligned_iff.2 halign), hidle]
  rfl

/-- Settles O8: an ignored write leaves the state, a read leaves it but for the word the host got, and `CMD` reads 0. -/
theorem registerAccessRules : Obligations.RegisterAccessRules := by
  intro s rest off data hwf hidle halign
  refine ⟨fun hq hcmd hrange => ?ignored, fun hq => ?read, fun hq => ?cmd⟩
  case ignored => exact (step_cons hwf hq).trans (State.regWrite_ignored halign hcmd (regOperand_none hrange) _ data)
  case read => exact (step_cons hwf hq).trans (State.regRead_of_idle halign hidle)
  case cmd => exact (step_cons hwf hq).trans (State.regRead_of_idle rfl hidle)

/-! ### Safe steps (60_exceptions.md R370, 93_implementation_defined.md U7) -/

/-- A command, whatever its word, runs to a next state (30_encoding.md R112, R113). -/
theorem State.runCommand_next (s : State) (w : Word) : ∃ t, s.runCommand w = .next t := by
  cases hd : decode w with
  | ok i =>
    obtain ⟨t, ht⟩ := exec_next i { s with busy := true }
    exact ⟨{ t with busy := false }, by rw [State.runCommand_ok hd, ht, clearBusy_next]⟩
  | error e => exact ⟨_, State.runCommand_error hd⟩

/-- An aligned word write to an idle MDAE answers a next state, whichever register it names. -/
theorem State.regWrite_next {s : State} {off : BitVec 8} (halign : off.toNat % 4 = 0) (hidle : s.busy = false)
    (data : Word) : ∃ t, s.regWrite off data = .next t := by
  cases hoperand : regOperand off with
  | some i => exact ⟨_, State.regWrite_operand halign hoperand hidle data⟩
  | none =>
    by_cases hcmd : off = 0
    · rw [hcmd, State.regWrite_cmd hidle]
      exact s.runCommand_next data
    · exact ⟨s, State.regWrite_ignored halign hcmd hoperand s data⟩

/-- An access of REG that is no aligned word is refused (93_implementation_defined.md U7). -/
theorem HostAction.apply_of_misaligned {a : HostAction} (h : a.Misaligned) (s : State) :
    a.apply s = .refused .regAccessNotAlignedWord := by
  cases a with
  | regWrite off data => exact State.regWrite_of_misaligned h s data
  | regRead off => exact State.regRead_of_misaligned h s
  | regNarrow off bytes => rfl
  | memWrite addr data => exact h.elim
  | memRead addr => exact h.elim
  | hwReset => exact h.elim

/-- Every other access answers a next state when MDAE is idle. -/
theorem HostAction.apply_next {a : HostAction} {s : State} (h : ¬a.Misaligned) (hidle : s.busy = false) :
    ∃ t, a.apply s = .next t := by
  cases a with
  | regWrite off data => exact State.regWrite_next (not_not.1 h) hidle data
  | regRead off => exact ⟨_, State.regRead_of_idle (not_not.1 h) hidle⟩
  | regNarrow off bytes => exact (h trivial).elim
  | memWrite addr data => exact ⟨_, rfl⟩
  | memRead addr => exact ⟨_, rfl⟩
  | hwReset => exact ⟨_, rfl⟩

/-- With no access planned and parameters in range, a step holds the state (60_exceptions.md R385). -/
theorem step_nil {s : State} (hwf : s.cfg.wf = true) (hq : s.hostq = []) : step s = .next s := by
  rw [step, State.advanceHost, hwf, hq]
  rfl

/-- Settles O19: the step is the next access, and a good state has parameters in range and is idle. -/
theorem goodStatesStepSafely : Obligations.GoodStatesStepSafely := by
  intro s hinv
  unfold safeStep
  cases hq : s.hostq with
  | nil => exact ⟨fun ⟨_, hnone, _⟩ => (nomatch hnone), fun _ => ⟨s, step_nil hinv.parameters hq⟩⟩
  | cons a rest =>
    rw [step_cons hinv.parameters hq]
    constructor
    · rintro ⟨_, ⟨rfl⟩, hmis⟩
      exact HostAction.apply_of_misaligned hmis _
    · intro h
      exact HostAction.apply_next (h a rfl) hinv.idle

end Sys2Proof.Machine

/-! ## Which command fails when (60_exceptions.md R371, R374, R375) -/

namespace Sys2Proof.Machine

/-- The result of a command that completes (00_scope.md R15). -/
def Completes (r : Result) : Prop := ∃ (u : State) (w : Word), r = .next (u.complete w)

theorem completes_complete (u : State) (w : Word) : Completes (.next (u.complete w)) := ⟨u, w, rfl⟩

/-- The result `r` of command `i` is the failure whose condition holds, of which there is one; or `i` completes and no
condition holds. -/
inductive State.EndsAsListed (s : State) (i : Instr) (r : Result) : Prop
  | fails (e : Failure) (honly : ∀ e', s.FailsWith i e' ↔ e' = e) (hr : r = .next (s.fail e))
  | completes (hnone : ∀ e, ¬s.FailsWith i e) (hr : Completes r)

/-! ### The commands without a listed condition -/

/-- The commands that 60_exceptions.md R374 gives a condition. -/
def CanFail : Instr → Prop
  | .play _ | .mix | .setlpf _ _ _ | .tbload | .ovtimbre _ _ | .ovvolume _ | .ovpitch _ | .noteon _ _ _ | .stop | .setpan
  | .setpitch | .setfreq | .isplaying => True
  | _ => False

/-- A condition that holds belongs to one of these commands. -/
theorem State.FailsWith.canFail {s : State} {i : Instr} {e : Failure} (h : s.FailsWith i e) : CanFail i := by
  cases i with
  | play | mix | setlpf | tbload | ovtimbre | ovvolume | ovpitch | noteon | stop | setpan | setpitch | setfreq
  | isplaying => trivial
  | _ => cases e <;> exact h.elim

/-- A Note Off completes (44_opl_allocator.md R258). -/
theorem State.noteOff_completes (s : State) (ch : BitVec 4) (key : BitVec 7) : Completes (.next (s.noteOff ch key)) := by
  unfold State.noteOff
  split <;> exact completes_complete _ _

theorem execAlloc_completes (s : State) : Completes (execAlloc s) := by
  unfold execAlloc
  split <;> exact completes_complete _ _

theorem execDrain_completes (s : State) : Completes (execDrain s) := by
  unfold execDrain
  split <;> exact completes_complete _ _

theorem execCback_completes (s : State) : Completes (execCback s) := by
  unfold execCback
  split <;> exact completes_complete _ _

theorem execOvfind_completes (ch : BitVec 4) (key : BitVec 7) (s : State) : Completes (execOvfind ch key s) := by
  unfold execOvfind
  split <;> exact completes_complete _ _

theorem execController_completes (ch : BitVec 4) (d1 d2 : BitVec 7) (s : State) :
    Completes (execController ch d1 d2 s) := by
  unfold execController
  split_ifs <;> exact completes_complete _ _

/-- Every other command completes in every state. -/
theorem exec_completes_of_not_canFail {i : Instr} (h : ¬CanFail i) (s : State) : Completes (exec i s) := by
  cases i with
  | play | mix | setlpf | tbload | ovtimbre | ovvolume | ovpitch | noteon | stop | setpan | setpitch | setfreq
  | isplaying => exact (h trivial).elim
  | alloc => exact execAlloc_completes s
  | drain => exact execDrain_completes s
  | cback => exact execCback_completes s
  | ovfind qch key => exact execOvfind_completes qch key s
  | noteoff ch d1 d2 => exact s.noteOff_completes ch d1
  | controller ch d1 d2 => exact execController_completes ch d1 d2 s
  | _ => exact completes_complete _ _

theorem endsAsListed_of_not_canFail {i : Instr} (h : ¬CanFail i) (s : State) : s.EndsAsListed i (exec i s) :=
  .completes (fun _ hf => h hf.canFail) (exec_completes_of_not_canFail h s)

/-! ### The commands with one condition -/

/-- A command that fails with `e` under the condition `P`, and completes otherwise. -/
theorem State.EndsAsListed.of_condition {s : State} {i : Instr} {r : Result} (e : Failure) {P : Prop}
    (hlist : ∀ e', s.FailsWith i e' = if e' = e then P else False) (hfail : P → r = .next (s.fail e))
    (hcomplete : ¬P → Completes r) : s.EndsAsListed i r := by
  by_cases hP : P
  · exact .fails e (fun e' => by simp [hlist, hP]) (hfail hP)
  · exact .completes (fun e' => by simp [hlist, hP]) (hcomplete hP)

/-- The buffer check of `MIX` (42_mixer.md R200) passes when its condition does not hold. -/
theorem State.mixArgsOk_iff (s : State) :
    s.mixArgsOk = true ↔ ¬((s.x.get 0).toNat % 4 ≠ 0 ∨ 2 ^ 32 < (s.x.get 0).toNat + 4 * s.cfg.nf) := by
  rw [State.mixArgsOk, Bool.and_eq_true, beq_iff_eq, decide_eq_true_eq, not_or, not_ne_iff, Nat.not_lt]
  rfl

theorem execMix_endsAsListed (s : State) : s.EndsAsListed .mix (execMix s) := by
  refine .of_condition .badArg (fun e => by cases e <;> rfl) (fun hbad => if_neg ?bad) fun hok => ?ok
  case bad => exact fun hok => s.mixArgsOk_iff.1 hok hbad
  case ok =>
    rw [execMix, if_pos (s.mixArgsOk_iff.2 hok)]
    exact completes_complete _ _

theorem execSetlpf_endsAsListed (en : Bool) (beta alpha : BitVec 9) (s : State) :
    s.EndsAsListed (.setlpf en beta alpha) (execSetlpf en beta alpha s) := by
  refine .of_condition .badArg (fun e => by cases e <;> rfl) (fun hbad => if_pos hbad) fun hok => ?_
  rw [execSetlpf, if_neg hok]
  exact completes_complete _ _

theorem execTbload_endsAsListed (s : State) : s.EndsAsListed .tbload (execTbload s) := by
  refine .of_condition .badArg (fun e => by cases e <;> rfl) (fun hbad => if_pos hbad) fun hok => ?_
  rw [execTbload, if_neg hok]
  exact completes_complete _ _

/-- `NOTEON` of velocity 0 is a Note Off and needs no bank (44_opl_allocator.md R257). -/
theorem execNoteon_endsAsListed (ch : BitVec 4) (d1 d2 : BitVec 7) (s : State) :
    s.EndsAsListed (.noteon ch d1 d2) (execNoteon ch d1 d2 s) := by
  refine .of_condition .noTimbre (fun e => by cases e <;> rfl) (fun hfails => ?unloaded) fun hok => ?ok
  case unloaded =>
    obtain ⟨hvel, hbank⟩ := hfails
    rw [execNoteon, if_neg hvel, hbank]
    rfl
  case ok =>
    unfold execNoteon
    split
    · exact s.noteOff_completes ch d1
    · rename_i hvel
      have hbank : s.tbValid = true := Bool.eq_true_of_not_eq_false fun hbank => hok ⟨hvel, hbank⟩
      rw [if_pos hbank]
      exact completes_complete _ _

/-- `lookup` refuses the handle register exactly when no slot has that handle (40_voice_pool.md R132). -/
theorem State.lookup_eq_none_iff (s : State) : s.lookup s.opHandle = none ↔ ¬∃ k v, s.HandleAt k v := by
  simp only [Option.eq_none_iff_forall_ne_some, Prod.forall, ne_eq, State.lookup_iff_handleAt, not_exists]

/-- A command on a handle fails on a bad one only (40_voice_pool.md R132). -/
theorem State.endsAsListed_of_lookup {s : State} {i : Instr} {r : Result}
    (hlist : ∀ e, s.FailsWith i e = if e = .badHandle then ¬∃ k v, s.HandleAt k v else False)
    (hfail : s.lookup s.opHandle = none → r = .next (s.fail .badHandle))
    (hcomplete : ∀ k v, s.HandleAt k v → Completes r) : s.EndsAsListed i r :=
  .of_condition .badHandle hlist (fun hbad => hfail (s.lookup_eq_none_iff.2 hbad)) fun hgood => by
    obtain ⟨k, v, h⟩ := not_not.1 hgood
    exact hcomplete k v h

/-- `SETPAN`, `SETPITCH` and `SETFREQ` (40_voice_pool.md R143 to R145) fail on a bad handle only. -/
theorem State.onActiveVoice_endsAsListed {s : State} {i : Instr}
    (hlist : ∀ e, s.FailsWith i e = if e = .badHandle then ¬∃ k v, s.HandleAt k v else False) (change : Voice → Voice) :
    s.EndsAsListed i (s.onActiveVoice change) := by
  refine State.endsAsListed_of_lookup hlist (fun hnone => ?_) fun k v h => ?_
  · rw [State.onActiveVoice, hnone]
  · rw [State.onActiveVoice_of_handleAt h]
    exact completes_complete _ _

theorem execStop_endsAsListed (s : State) : s.EndsAsListed .stop (execStop s) := by
  refine State.endsAsListed_of_lookup (fun e => by cases e <;> rfl) (fun hnone => ?_) fun k v h => ?_
  · rw [execStop, hnone]
  · rw [execStop_of_handleAt h]
    exact completes_complete _ _

theorem execIsplaying_endsAsListed (s : State) : s.EndsAsListed .isplaying (execIsplaying s) := by
  refine State.endsAsListed_of_lookup (fun e => by cases e <;> rfl) (fun hnone => ?_) fun k v h => ?_
  · rw [execIsplaying, hnone]
  · rw [execIsplaying_of_handleAt h]
    exact completes_complete _ _

/-! ### The commands with two conditions -/

/-- A command that rejects its arguments under `P`, fails with another `e` under `Q`, which excludes `P`, and completes
otherwise. -/
theorem State.EndsAsListed.of_two_conditions {s : State} {i : Instr} {r : Result} {e : Failure} (he : e ≠ .badArg)
    {P Q : Prop} (hlist : ∀ e', s.FailsWith i e' = if e' = .badArg then P else if e' = e then Q else False)
    (hexcl : Q → ¬P) (hbad : P → r = .next (s.fail .badArg)) (hfail : Q → r = .next (s.fail e))
    (hcomplete : ¬P → ¬Q → Completes r) : s.EndsAsListed i r := by
  by_cases hP : P
  · have hQ : ¬Q := fun hQ => hexcl hQ hP
    exact .fails .badArg (fun e' => by simp [hlist, hP, hQ]) (hbad hP)
  by_cases hQ : Q
  · refine .fails e (fun e' => ?_) (hfail hQ)
    by_cases he' : e' = .badArg
    · simp [hlist, he', hP, he.symm]
    · simp [hlist, he', hQ]
  · exact .completes (fun e' => by simp [hlist, hP, hQ]) (hcomplete hP hQ)

/-- `PLAY` checks its arguments first and then needs a slot (40_voice_pool.md R136). -/
theorem execPlay_endsAsListed (fmt : BitVec 4) (s : State) : s.EndsAsListed (.play fmt) (execPlay fmt s) := by
  refine .of_two_conditions (e := .noVoice) (by decide) (fun e => by cases e <;> rfl) And.left (fun hbad => if_neg ?bad)
    (fun hnovoice => ?full) fun hok hroom => ?ok
  case bad => exact fun hargs => (playArgsOk_iff fmt s).1 hargs hbad
  case full =>
    obtain ⟨hok, hfull⟩ := hnovoice
    have hnone : allocate s.voices s.opPrio = none := hfull.allocate_eq
    rw [execPlay, if_pos ((playArgsOk_iff fmt s).2 hok), hnone]
  case ok =>
    rcases s.allocate_cases s.opPrio with ⟨k, v, halloc, hv, -⟩ | ⟨-, hfull⟩
    · rw [execPlay_of_allocate ((playArgsOk_iff fmt s).2 hok) halloc hv]
      exact completes_complete _ _
    · exact absurd ⟨hok, hfull⟩ hroom

/-- A number above 8 names no OPL voice (30_encoding.md R108). -/
theorem voSlot_of_ge {vo : BitVec 4} (h : 9 ≤ vo.toNat) : voSlot vo = none := dif_neg (by omega)

/-- A command on an OPL voice given by number (45_fm_register_mapper.md R295, R297, R299): the number is rejected, or its
voice is not ready, or the command completes. -/
theorem State.endsAsListed_of_voSlot {s : State} {i : Instr} {r : Result} {vo : BitVec 4} (ready : Fin 9 → Bool) {Q : Prop}
    (hlist : ∀ e, s.FailsWith i e = if e = .badArg then 9 ≤ vo.toNat else if e = .noTimbre then Q else False)
    (hunready : Q ↔ ∃ k : Fin 9, k.val = vo.toNat ∧ ready k = false)
    (hbad : voSlot vo = none → r = .next (s.fail .badArg))
    (hfail : ∀ k, voSlot vo = some k → ready k = false → r = .next (s.fail .noTimbre))
    (hcomplete : ∀ k : Fin 9, k.val = vo.toNat → ready k = true → Completes r) : s.EndsAsListed i r := by
  refine .of_two_conditions (by decide) hlist (fun hQ => ?excl) (fun hlarge => hbad (voSlot_of_ge hlarge))
    (fun hQ => ?unready) fun hsmall hQ => ?ready
  case excl =>
    obtain ⟨k, hk, -⟩ := hunready.1 hQ
    omega
  case unready =>
    obtain ⟨k, hk, hready⟩ := hunready.1 hQ
    exact hfail k (voSlot_of_val hk) hready
  case ready =>
    rw [hunready] at hQ
    push Not at hQ
    rcases voSlot_cases vo with ⟨k, -, hk⟩ | ⟨hlarge, -⟩
    · exact hcomplete k hk (Bool.eq_true_of_not_eq_false (hQ k hk))
    · exact absurd hlarge hsmall

theorem execOvtimbre_endsAsListed (vo : BitVec 4) (tim : BitVec 8) (s : State) :
    s.EndsAsListed (.ovtimbre vo tim) (execOvtimbre vo tim s) := by
  refine State.endsAsListed_of_voSlot (fun _ => s.tbValid) (fun e => by cases e <;> rfl) ⟨?_, ?_⟩ (fun hslot => ?_)
    (fun k hslot hbank => ?_) fun k hk hbank => ?_
  · exact fun ⟨hsmall, hbank⟩ => ⟨⟨vo.toNat, hsmall⟩, rfl, hbank⟩
  · exact fun ⟨k, hk, hbank⟩ => ⟨hk ▸ k.isLt, hbank⟩
  · rw [execOvtimbre, hslot]
  · simp [execOvtimbre, hslot, hbank]
  · simp [execOvtimbre, voSlot_of_val hk, hbank, completes_complete]

/-- A voice cannot be rewritten when the bank is not loaded or the voice not programmed (45_fm_register_mapper.md R297,
R299). -/
theorem State.programmed_eq_false_iff (s : State) (k : Fin 9) :
    s.programmed k = false ↔ s.tbValid = false ∨ (s.ovoices.get k).timbre = none := by
  rw [State.programmed, Bool.and_eq_false_iff, Option.isSome_eq_false_iff, Option.isNone_iff_eq_none]

theorem execOvvolume_endsAsListed (vo : BitVec 4) (s : State) : s.EndsAsListed (.ovvolume vo) (execOvvolume vo s) := by
  refine State.endsAsListed_of_voSlot s.programmed (fun e => by cases e <;> rfl) ?_ (fun hslot => ?_)
    (fun k hslot hprog => ?_) fun k hk hprog => ?_
  · simp only [State.programmed_eq_false_iff]
  · rw [execOvvolume, hslot]
  · simp [execOvvolume, hslot, hprog]
  · simp [execOvvolume, voSlot_of_val hk, hprog, completes_complete]

theorem execOvpitch_endsAsListed (vo : BitVec 4) (s : State) : s.EndsAsListed (.ovpitch vo) (execOvpitch vo s) := by
  refine State.endsAsListed_of_voSlot s.programmed (fun e => by cases e <;> rfl) ?_ (fun hslot => ?_)
    (fun k hslot hprog => ?_) fun k hk hprog => ?_
  · simp only [State.programmed_eq_false_iff]
  · rw [execOvpitch, hslot]
  · simp [execOvpitch, hslot, hprog]
  · simp [execOvpitch, voSlot_of_val hk, hprog, completes_complete]

/-! ### Every command -/

/-- Every command fails exactly on its listed condition, and completes otherwise (60_exceptions.md R370, R374). -/
theorem exec_endsAsListed (i : Instr) (s : State) : s.EndsAsListed i (exec i s) := by
  cases i with
  | play fmt => exact execPlay_endsAsListed fmt s
  | mix => exact execMix_endsAsListed s
  | setlpf en beta alpha => exact execSetlpf_endsAsListed en beta alpha s
  | tbload => exact execTbload_endsAsListed s
  | ovtimbre vo tim => exact execOvtimbre_endsAsListed vo tim s
  | ovvolume vo => exact execOvvolume_endsAsListed vo s
  | ovpitch vo => exact execOvpitch_endsAsListed vo s
  | noteon ch d1 d2 => exact execNoteon_endsAsListed ch d1 d2 s
  | stop => exact execStop_endsAsListed s
  | setpan => exact State.onActiveVoice_endsAsListed (fun e => by cases e <;> rfl) _
  | setpitch => exact State.onActiveVoice_endsAsListed (fun e => by cases e <;> rfl) _
  | setfreq => exact State.onActiveVoice_endsAsListed (fun e => by cases e <;> rfl) _
  | isplaying => exact execIsplaying_endsAsListed s
  | _ =>
    refine endsAsListed_of_not_canFail ?_ s
    exact id

/-- Inline fields that the command's own rule rejects make it fail in every state (30_encoding.md R105, R106, R108). -/
theorem State.failsWith_of_not_wellFormed (s : State) {i : Instr} (h : i.wellFormed = false) : s.FailsWith i .badArg := by
  cases i with
  | play fmt =>
    have hrejected : fmtAccepted fmt = false := h
    rw [fmtAccepted, Bool.not_eq_false', Bool.and_eq_true, Bool.or_eq_true] at hrejected
    exact .inl hrejected
  | setlpf en beta alpha =>
    have hrejected : lpfAccepted beta alpha = false := h
    have hsum : 256 < alpha.toNat + beta.toNat := by
      simp only [lpfAccepted, Bool.and_eq_false_iff, decide_eq_false_iff_not] at hrejected
      omega
    exact .inr (.inr hsum)
  | ovtimbre vo tim | ovvolume vo | ovpitch vo => exact Nat.not_lt.1 (of_decide_eq_false h)
  | _ => cases h

/-- Settles O20: the result is the one that `exec_endsAsListed` describes. -/
theorem commandsFailExactlyWhenListed : Obligations.CommandsFailExactlyWhenListed := by
  refine ⟨fun i s => ?_, rfl⟩
  have hrejected : i.wellFormed = false → s.FailsWith i .badArg := s.failsWith_of_not_wellFormed
  cases exec_endsAsListed i s with
  | fails e honly hr =>
    refine ⟨s.fail e, hr, fun e' he' => ?_, fun hnone => ?_, hrejected⟩
    · rw [(honly e').1 he']
      rfl
    · exact absurd ((honly e).2 rfl) (hnone e)
  | completes hnone hr =>
    obtain ⟨u, w, hr⟩ := hr
    exact ⟨u.complete w, hr, fun e he => absurd he (hnone e), fun _ => rfl, hrejected⟩

end Sys2Proof.Machine

/-! ## A command while busy, and the state after reset (70_reset_and_hazards.md R400, R411; 10_state.md R25, R49) -/

namespace Sys2Proof.Machine

/-! ### A write of `CMD` while busy (70_reset_and_hazards.md R411) -/

/-- A write to `CMD` while `BUSY = 1` is dropped: the state keeps everything but the flag `F_OVERRUN` (10_state.md R25). -/
theorem State.regWrite_cmd_busy {s : State} (hbusy : s.busy = true) (data : Word) :
    s.regWrite 0 data = .next (s.flag .overrun) := by
  have hwrite : s.regWrite 0 data = s.writeCmd data := rfl
  rw [hwrite, State.writeCmd, if_pos hbusy]

/-- Settles O10: the step is that write, and the mask of `F_OVERRUN` is `0x80` (10_state.md R27). -/
theorem busyCommandIsDropped : Obligations.BusyCommandIsDropped := by
  intro s rest w hwf hbusy hq
  exact (step_cons hwf hq).trans (State.regWrite_cmd_busy (s := { s with hostq := rest }) hbusy w)

/-! ### The state after reset (10_state.md R49) -/

/-- Hardware reset leaves a sound state for every parameter set in range: no voice of either kind is active, the queue is
empty, no session is open and MEM lists no byte. -/
theorem State.resetWith_sound {c : Config} (hwf : c.wf = true) : (State.resetWith c).Sound where
  parameters := hwf
  memory := Memory.wf_nil
  slots := (State.resetWith_hasResetValues c).slots
  voices v hv := by
    rw [List.eq_of_mem_replicate hv]
    exact Voice.sound_of_idle rfl List.length_replicate
  queue := ⟨Nat.zero_le 32, rfl⟩
  session := ⟨rfl, Nat.zero_le 8, fun _ => rfl⟩
  filter := le_refl 256
  bank := List.length_replicate
  opl k := by
    rw [State.resetWith_ovoices, Vector.get_replicate]
    exact OplVoice.ok_of_idle rfl rfl
  errorCode := Nat.zero_le 5

/-- The parameter set of 95_test_vectors.md is in the ranges of 00_scope.md R8. -/
theorem standardConfig_wf : standardConfig.wf = true := by decide

/-- Settles O13: every parameter set in range gives a sound state that is not busy, and the standard one is in range. -/
theorem resetMeetsTheInvariant : Obligations.ResetMeetsTheInvariant :=
  (State.inv_iff State.reset).2 ⟨rfl, State.resetWith_sound standardConfig_wf⟩

end Sys2Proof.Machine
